-- ==== Sys2Proof/Word.lean ====
section
/-! DEFINITION. The bit-vector types of the block's values (00_scope.md rule R7) and the RGB triple. -/

namespace Sys2Proof

/-- One byte: an IMG byte, one RGB channel, one item of the output stream (R7). -/
abbrev Byte := BitVec 8

/-- An operation word or a response word (R7). -/
abbrev Word := BitVec 32

/-- An RGB triple: three 8-bit channels, 24 bits together (R7, R27). -/
structure Rgb where
  r : Byte
  g : Byte
  b : Byte
deriving DecidableEq, Repr, Inhabited

/-- `(0x00, 0x00, 0x00)`, the one palette value the source gives (R93). -/
def Rgb.black : Rgb := { r := 0x00, g := 0x00, b := 0x00 }

end Sys2Proof
end

