-- ==== Sys2Proof/Syntax.lean ====
section
/-! DEFINITION. The operations of the block (30_encoding.md rule R73), the reasons a word is illegal (R80),
and the assembly forms (R86, R87). -/

namespace Sys2Proof

/-- One constructor per row of spec/opcode_table.json. A field has exactly the width the format gives it
(R74 to R79), so every term is an encodable operation; range checks on `col` and `row` are the CAU's and
no part of the syntax (R85). -/
inductive Instr where
  /-- LOOKUP (R74, R91): `idx` is a hardware colour index. -/
  | lookup (idx : BitVec 4)
  /-- ADDR (R75, R109): logical column and row, in range or not. -/
  | addr (col row : Byte)
  /-- SEL (R76, R122): a bitmap byte and a pair index. -/
  | sel (byte : Byte) (pair : BitVec 2)
  /-- RESOLVE (R77, R125): a selector, the two attribute bytes, the background byte. -/
  | resolve (sel : BitVec 2) (attrA attrB bg : Byte)
  /-- PIXEL (R78, R129): logical column and row, in range or not. -/
  | pixel (col row : Byte)
  /-- RUN (R79, R141): the expansion flag. -/
  | run (e : Bool)
deriving DecidableEq, Repr

/-- Why a word is illegal (R80): the two ways it can select no row of the op code map. -/
inductive Illegal where
  /-- The op code is 0x0 or 0x7..0xF. -/
  | reservedOp
  /-- The op code is one of 0x1..0x6 and a reserved bit of its format is 1. -/
  | reservedBit
deriving DecidableEq, Repr

/-- One line of assembly text as written (R86, R87): operands are numbers of any size, which an assembler
refuses where they do not fit. -/
inductive Asm where
  | lookup (idx : Nat)
  | addr (col row : Nat)
  | sel (byte pair : Nat)
  | resolve (sel attrA attrB bg : Nat)
  | pixel (col row : Nat)
  /-- `RUN e`, or `RUN` with no operand. -/
  | run (e : Option Nat)
  /-- `RUNX`, which is `RUN 1`. -/
  | runx
  /-- `.word w`, the raw word, legal or not. -/
  | word (w : Nat)
deriving DecidableEq, Repr

end Sys2Proof
end

