-- ==== Sys2Proof/WellFormed.lean ====
section
/-! DEFINITION. Which assembly lines are well formed: every operand fits its field (30_encoding.md rule R86).
An `Instr` needs no such check, since its fields have the widths of the formats (Syntax.lean). -/

namespace Sys2Proof

/-- "An assembler refuses an operand that does not fit its field" (R86); a coordinate that fits its 8 bits is
accepted, in range or not. -/
def Asm.wellFormed : Asm → Bool
  | .lookup idx => decide (idx < 2 ^ 4)
  | .addr col row => decide (col < 2 ^ 8) && decide (row < 2 ^ 8)
  | .sel byte pair => decide (byte < 2 ^ 8) && decide (pair < 2 ^ 2)
  | .resolve s attrA attrB bg =>
      decide (s < 2 ^ 2) && decide (attrA < 2 ^ 8) && decide (attrB < 2 ^ 8) && decide (bg < 2 ^ 8)
  | .pixel col row => decide (col < 2 ^ 8) && decide (row < 2 ^ 8)
  | .run none => true
  | .run (some e) => decide (e < 2)
  | .runx => true
  | .word w => decide (w < 2 ^ 32)

end Sys2Proof
end

