-- ==== Sys2Proof/Decode.lean ====
section
/-! DEFINITION. The op code map (30_encoding.md rule R73), the decoder (R85), the encoder (R74 to R79) and the
assembler (R86, R87). -/

namespace Sys2Proof

/-- One row of the op code map (R73): a word `w` selects the row exactly when `w &&& mask = matchBits`. -/
structure OpRow where
  mnemonic : String
  matchBits : Word
  mask : Word
deriving DecidableEq, Repr

/-- The op code map, in the table's order (R73). -/
def opTable : List OpRow :=
  [ { mnemonic := "LOOKUP",  matchBits := 0x10000000, mask := 0xFFFFFFF0 },
    { mnemonic := "ADDR",    matchBits := 0x20000000, mask := 0xFFFF0000 },
    { mnemonic := "SEL",     matchBits := 0x30000000, mask := 0xFFFFFC00 },
    { mnemonic := "RESOLVE", matchBits := 0x40000000, mask := 0xFC000000 },
    { mnemonic := "PIXEL",   matchBits := 0x50000000, mask := 0xFFFF0000 },
    { mnemonic := "RUN",     matchBits := 0x60000000, mask := 0xFFFFFFFE } ]

/-- The word `w` selects the row `r` (R73). -/
def OpRow.selects (r : OpRow) (w : Word) : Bool := w &&& r.mask == r.matchBits

/-- Position of an operation's row in the op code map (R73). -/
def Instr.rowIndex : Instr → Fin 6
  | .lookup _ => 0
  | .addr _ _ => 1
  | .sel _ _ => 2
  | .resolve _ _ _ _ => 3
  | .pixel _ _ => 4
  | .run _ => 5

/-- An operation's row of the op code map (R73). -/
def Instr.opRow (i : Instr) : OpRow := opTable.get i.rowIndex

/-- Decoding (R85), total on every 32-bit word. -/
def decode (w : Word) : Except Illegal Instr :=
  let op := w.extractLsb' 28 4
  if op = 0x1 then
    if w.extractLsb' 4 24 = 0 then .ok (.lookup (w.extractLsb' 0 4)) else .error .reservedBit
  else if op = 0x2 then
    if w.extractLsb' 16 12 = 0 then .ok (.addr (w.extractLsb' 0 8) (w.extractLsb' 8 8)) else .error .reservedBit
  else if op = 0x3 then
    if w.extractLsb' 10 18 = 0 then .ok (.sel (w.extractLsb' 0 8) (w.extractLsb' 8 2)) else .error .reservedBit
  else if op = 0x4 then
    if w.extractLsb' 26 2 = 0 then
      .ok (.resolve (w.extractLsb' 24 2) (w.extractLsb' 8 8) (w.extractLsb' 16 8) (w.extractLsb' 0 8))
    else .error .reservedBit
  else if op = 0x5 then
    if w.extractLsb' 16 12 = 0 then .ok (.pixel (w.extractLsb' 0 8) (w.extractLsb' 8 8)) else .error .reservedBit
  else if op = 0x6 then
    if w.extractLsb' 1 27 = 0 then .ok (.run (w.getLsbD 0)) else .error .reservedBit
  else .error .reservedOp

/-- Encoding, from the formats R74 to R79: op code, reserved zeros, fields. -/
def encode : Instr → Word
  | .lookup idx => 0b0001#4 ++ 0#24 ++ idx
  | .addr col row => 0b0010#4 ++ 0#12 ++ row ++ col
  | .sel byte pair => 0b0011#4 ++ 0#18 ++ pair ++ byte
  | .resolve sel attrA attrB bg => 0b0100#4 ++ 0#2 ++ sel ++ attrB ++ attrA ++ bg
  | .pixel col row => 0b0101#4 ++ 0#12 ++ row ++ col
  | .run e => 0b0110#4 ++ 0#27 ++ BitVec.ofBool e

/-- The instruction the decoder reads from the operation word whose bits are `w` (the word is one value of the
command port, so no byte order arises: R67, R70; notes/assumptions/19.md). Every row has 32 bits. -/
def decodeTableWord (nbits w : Nat) : Option Instr := (decode (BitVec.ofNat 32 (w % 2 ^ nbits))).toOption

/-- The word of an assembly line (R86, R87), or none where an operand does not fit its field. -/
def assemble (a : Asm) : Option Word :=
  if a.wellFormed then
    some (BitVec.ofNat 32 (match a with
      | .lookup idx => 0x10000000 ||| idx
      | .addr col row => 0x20000000 ||| row <<< 8 ||| col
      | .sel byte pair => 0x30000000 ||| pair <<< 8 ||| byte
      | .resolve sel attrA attrB bg => 0x40000000 ||| sel <<< 24 ||| attrB <<< 16 ||| attrA <<< 8 ||| bg
      | .pixel col row => 0x50000000 ||| row <<< 8 ||| col
      | .run none => 0x60000000
      | .run (some e) => 0x60000000 ||| e
      | .runx => 0x60000000 ||| 1
      | .word w => w))
  else none

/-! The text of a line (R86). Blanks and the case of hexadecimal digits: notes/assumptions/18.md. -/

/-- The line without its comment: `;` starts a comment (R86). -/
def dropComment (line : List Char) : List Char := line.takeWhile (· != ';')

/-- A blank or a tab. -/
def isBlank (c : Char) : Bool := c == ' ' || c == '\t'

/-- The characters without blanks at either end. -/
def trimBlanks (cs : List Char) : List Char := ((cs.dropWhile isBlank).reverse.dropWhile isBlank).reverse

/-- The pieces between the commas. -/
def splitCommas : List Char → List (List Char)
  | [] => [[]]
  | c :: cs =>
    if c == ',' then [] :: splitCommas cs
    else
      match splitCommas cs with
      | [] => [[c]]
      | p :: ps => (c :: p) :: ps

/-- The value of a digit, where it is one of the base. -/
def digitValue (base : Nat) (c : Char) : Option Nat :=
  let v := if '0' ≤ c ∧ c ≤ '9' then some (c.toNat - '0'.toNat)
    else if 'a' ≤ c ∧ c ≤ 'f' then some (c.toNat - 'a'.toNat + 10)
    else if 'A' ≤ c ∧ c ≤ 'F' then some (c.toNat - 'A'.toNat + 10)
    else none
  v.filter (· < base)

/-- Digits after those already read. -/
def digitsValue (base : Nat) : Nat → List Char → Option Nat
  | acc, [] => some acc
  | acc, c :: cs =>
    match digitValue base c with
    | some d => digitsValue base (acc * base + d) cs
    | none => none

/-- "Operands are decimal or `0x` hexadecimal numbers" (R86). -/
def parseNumber : List Char → Option Nat
  | [] => none
  | ['0', 'x'] => none
  | '0' :: 'x' :: ds => digitsValue 16 0 ds
  | ds => digitsValue 10 0 ds

/-- All the numbers, or none where one piece is no number. -/
def parseNumbers : List (List Char) → Option (List Nat)
  | [] => some []
  | p :: ps =>
    match parseNumber (trimBlanks p), parseNumbers ps with
    | some n, some ns => some (n :: ns)
    | _, _ => none

/-- A line of assembly text (R86, R87), or none where it has no such form. -/
def parseAsm (line : List Char) : Option Asm :=
  let text := trimBlanks (dropComment line)
  let name := text.takeWhile (fun c => !isBlank c)
  let rest := trimBlanks (text.dropWhile (fun c => !isBlank c))
  match (if rest = [] then some [] else parseNumbers (splitCommas rest)) with
  | none => none
  | some args =>
    if name = "LOOKUP".toList then match args with | [idx] => some (.lookup idx) | _ => none
    else if name = "ADDR".toList then match args with | [col, row] => some (.addr col row) | _ => none
    else if name = "SEL".toList then match args with | [byte, pair] => some (.sel byte pair) | _ => none
    else if name = "RESOLVE".toList then
      match args with | [sel, attrA, attrB, bg] => some (.resolve sel attrA attrB bg) | _ => none
    else if name = "PIXEL".toList then match args with | [col, row] => some (.pixel col row) | _ => none
    else if name = "RUN".toList then
      match args with | [] => some (.run none) | [e] => some (.run (some e)) | _ => none
    else if name = "RUNX".toList then match args with | [] => some .runx | _ => none
    else if name = ".word".toList then match args with | [w] => some (.word w) | _ => none
    else none

/-- The word of a line of assembly text (R86, R87). -/
def assembleText (line : String) : Option Word := (parseAsm line.toList).bind assemble

end Sys2Proof
end

