-- ==== Sys2Proof/Config.lean ====
section
/-! DEFINITION. What is fixed for one machine: the geometry (00_scope.md rule R6) and the open parameter
`PALETTE` (R8). The other parameter, `BG_POLICY`, is a field of State (notes/assumptions/7.md). -/

namespace Sys2Proof

/-- A logical column, 0..159: `NCOL = 160` (R6, R7). -/
abbrev Col := Fin 160
/-- A row, 0..199: `NROW = 200` (R6, R7). -/
abbrev Row := Fin 200
/-- An address of IMG, 0..10002: `IMG_SIZE = 10003` (R6, R7, R51). -/
abbrev ImgAddr := Fin 10003
/-- An index into the header, 0..37: `HDR_LEN = 38` (R6, R146). -/
abbrev HdrIndex := Fin 38

/-- The open entries 1..15 of `PALETTE` (R8, R94; 91_not_in_source.md N1): no value of it can be proved
(its value at 0 is not used). notes/assumptions/6.md. -/
opaque Config.openPalette : Fin 16 → Rgb

/-- `PALETTE` (R8): any sixteen triples with `PALETTE(0) = (0, 0, 0)` (R93). -/
def Config.palette (i : Fin 16) : Rgb := if i = 0 then Rgb.black else Config.openPalette i

end Sys2Proof
end

