-- ==== Sys2Proof/Machine/State.lean ====
section
/-! DEFINITION. The machine's state (10_state.md rules R21, R23, R38; 20_memory.md rule R51), the ways a step can
stop, and the state after reset. -/

namespace Sys2Proof.Machine

/-- `S.phase` (R25). The unused encoding 3 is not representable (R25; 93_implementation_defined.md U10;
notes/assumptions/16.md). -/
inductive Phase where
  /-- IDLE: no stream in progress; commands are accepted. -/
  | idle
  /-- HDR: the emitter presents header byte `S.hdr_i`. -/
  | hdr
  /-- PIX: the emitter presents channel `S.chan` of copy `S.dup` of pixel `(S.col, S.row)`. -/
  | pix
deriving DecidableEq, Repr

/-- `S.chan` (R23): 0 = R, 1 = G, 2 = B. The unused encoding 3 is not representable (U10). -/
inductive Chan where
  | r
  | g
  | b
deriving DecidableEq, Repr

/-- `BG_POLICY` (R8, R124): what a background byte with a non-zero high nibble does. -/
inductive BgPolicy where
  | mask
  | fault
deriving DecidableEq, Repr

/-- The two kinds of error the block raises (R170). -/
inductive ErrKind where
  /-- ERR_OP: an illegal operation word (R172). -/
  | op
  /-- ERR_RANGE: a coordinate outside the grid (R173). -/
  | range
deriving DecidableEq, Repr

/-- IMG as (address, byte) pairs in one canonical form (Machine/Ops.lean, `Memory.wf`). -/
abbrev Memory := List Host.Cell

/-- One move of the host agent (R20, R21; notes/assumptions/1.md). DESIGN CHOICE: no move lowers `cmd_valid` before
acceptance, a point that R70 and R202 leave open (notes/assumptions/22.md). -/
inductive HostMove where
  /-- The host leaves every port as it is. -/
  | wait
  /-- The host offers a command: `cmd_valid = 1`, `cmd_word = w`; it first waits for an earlier offer to be
  accepted (R202; notes/assumptions/3.md). -/
  | offer (w : Word)
  /-- The host drives `out_ready`. -/
  | ready (v : Bool)
  /-- The host drives `rst`. -/
  | reset (v : Bool)
  /-- The host writes one byte of IMG (R57). -/
  | writeImg (a : ImgAddr) (v : Byte)
deriving DecidableEq, Repr

/-- What the output ports delivered in one step. -/
inductive PortEvent where
  /-- A response was presented: `rsp_valid = 1` with `rsp_err` and `rsp_word` (R71). -/
  | response (err : Bool) (word : Word)
  /-- A stream byte was transferred: `out_valid = out_ready = 1` with `out_data` and `out_last` (R150). -/
  | byte (data : Byte) (last : Bool)
deriving DecidableEq, Repr

/-- Why the machine stops with a fault. -/
inductive Fault where
  /-- BG_HIGH_NIBBLE (R175): raised by RESOLVE, PIXEL and the emitter when `bg_index` is evaluated on a background
  byte of 16 or more under `BG_POLICY = FAULT`; the spec's own model fault. SAFE: the model gives no result where
  the spec gives none. -/
  | bgHighNibble
deriving DecidableEq, Repr

/-- Why a step has no meaning. -/
inductive Refusal where
  /-- Raised by no arm of this model: an instruction that has no meaning yet. SAFE. -/
  | notModelled (mnemonic : String)
  /-- Raised by the host's move `writeImg` while BUSY or while a command is in flight, a broken host duty after which
  the spec gives the stream no value (R57, R195; 93_implementation_defined.md U3 says to refuse it). SAFE. -/
  | imgWriteInFlight
deriving DecidableEq, Repr

/-- The whole machine: the block's registers (R23), its ROM and parameter, IMG (R51), its ports (R21) and the host
agent as data (R20). -/
structure State where
  /-- `S.phase` (R25). -/
  phase : Phase
  /-- `S.hdr_i`, 6 bits, legal 0..37 (R23). -/
  hdrI : HdrIndex
  /-- `S.row`, 8 bits, legal 0..199 (R23). -/
  row : Row
  /-- `S.col`, 8 bits, legal 0..159 (R23). -/
  col : Col
  /-- `S.dup`, 1 bit (R23). -/
  dup : Bool
  /-- `S.chan` (R23). -/
  chan : Chan
  /-- `S.EXP`, 1 bit (R33). -/
  expand : Bool
  /-- `S.DONE`, 1 bit (R30). -/
  done : Bool
  /-- `S.ERR_OP`, 1 bit (R31). -/
  errOp : Bool
  /-- `S.ERR_RANGE`, 1 bit (R32). -/
  errRange : Bool
  /-- `S.RSP_WORD`, 32 bits (R35). -/
  rspWord : Word
  /-- `S.RSP_ERR`, 1 bit (R35). -/
  rspErr : Bool
  /-- `S.PIX_RGB`, 24 bits, not visible at any port (R36). -/
  pixRgb : Rgb
  /-- ROM, 16 entries of 24 bits (R27). -/
  rom : Vector Rgb 16
  /-- The parameter `BG_POLICY` (R8); no step changes it. -/
  bgPolicy : BgPolicy
  /-- IMG, 10,003 bytes (R51). -/
  img : Memory
  /-- Port `rst` (R190). -/
  rst : Bool
  /-- Port `cmd_valid` (R70). -/
  cmdValid : Bool
  /-- Port `cmd_word` (R70). -/
  cmdWord : Word
  /-- Port `out_ready` (R150). -/
  outReady : Bool
  /-- Port `rsp_valid` in the step just taken (R71). -/
  rspValid : Bool
  /-- The model's own: the host moves still to come, first one first (notes/assumptions/1.md). -/
  script : List HostMove
  /-- The model's own: what the output ports have delivered, newest first (notes/assumptions/10.md). -/
  log : List PortEvent
deriving DecidableEq, Repr

/-- The state after reset (R38, R190). Not the spec's: the value of `pixRgb` (notes/assumptions/9.md), the input
ports (4.md), IMG with nothing written (5.md), `bgPolicy` at the default of R8 (7.md), `script` and `log` empty
(1.md, 10.md). -/
def State.reset : State where
  phase := .idle
  hdrI := 0
  row := 0
  col := 0
  dup := false
  chan := .r
  expand := false
  done := false
  errOp := false
  errRange := false
  rspWord := 0x00000000
  rspErr := false
  pixRgb := Rgb.black
  rom := #v[Config.palette 0, Config.palette 1, Config.palette 2, Config.palette 3,
    Config.palette 4, Config.palette 5, Config.palette 6, Config.palette 7,
    Config.palette 8, Config.palette 9, Config.palette 10, Config.palette 11,
    Config.palette 12, Config.palette 13, Config.palette 14, Config.palette 15]
  bgPolicy := .mask
  img := []
  rst := false
  cmdValid := false
  cmdWord := 0x00000000
  outReady := false
  rspValid := false
  script := []
  log := []

end Sys2Proof.Machine
end

