-- ==== Sys2Proof/Machine/Ops.lean ====
section
/-! DEFINITION. The named operations over IMG (20_memory.md), the response port (30_encoding.md rule R71), the error
response (60_exceptions.md rule R171), the position counters and reset (70_reset_and_hazards.md rule R190). -/

namespace Sys2Proof.Machine

/-! ## IMG -/

/-- What a byte of IMG that the host has not written reads as. The spec leaves it unspecified (R193; U4):
notes/assumptions/5.md, DESIGN CHOICE, unsafe. -/
def Memory.unwritten : Byte := 0x00

/-- `MemRead(a, 1)` (R55): one byte of IMG, with no side effect. -/
def Memory.read : Memory → Nat → Byte
  | [], _ => Memory.unwritten
  | (k, v) :: m, a => if k = a then v else Memory.read m a

/-- `MemWrite(a, 1, v)` (R11, R57), which only the host performs. It keeps the canonical form: rising addresses, no
entry for a byte that reads as unwritten. -/
def Memory.write : Memory → Nat → Byte → Memory
  | [], a, v => if v = Memory.unwritten then [] else [(a, v)]
  | (k, w) :: m, a, v =>
    if a < k then (if v = Memory.unwritten then (k, w) :: m else (a, v) :: (k, w) :: m)
    else if a = k then (if v = Memory.unwritten then m else (a, v) :: m)
    else (k, w) :: Memory.write m a v

/-- The canonical form from address `lo` on: strictly rising addresses within IMG, no entry equal to what an unlisted
address reads as. -/
def Memory.wfFrom : Nat → Memory → Bool
  | _, [] => true
  | lo, (k, v) :: m =>
    decide (lo ≤ k) && decide (k < 10003) && decide (v ≠ Memory.unwritten) && Memory.wfFrom (k + 1) m

/-- The canonical form of IMG. -/
def Memory.wf (m : Memory) : Bool := Memory.wfFrom 0 m

/-- `BM_BASE`, first address of the bitmap plane (R52). -/
def bmBase : Nat := 2
/-- `A_BASE`, first address of attribute plane A (R52). -/
def aBase : Nat := 8002
/-- `B_BASE`, first address of attribute plane B (R52). -/
def bBase : Nat := 9002
/-- `BG_ADDR`, address of the background colour (R52). -/
def bgAddr : Nat := 10002

/-! ## The palette ROM -/

/-- `ROM(i)` (R27, R69): every 4-bit index addresses an entry. -/
def State.romRead (s : State) (idx : BitVec 4) : Rgb := s.rom[idx.toNat]'(idx.isLt)

/-! ## Responses and errors -/

/-- The step presents no response: `rsp_valid = 0`; `S.RSP_WORD` and `S.RSP_ERR` keep their values (R35). -/
def State.noResponse (s : State) : State := { s with rspValid := false }

/-- `respond(w)` (R11, R71): `rsp_valid = 1`, `rsp_err = 0`, `rsp_word = w`, kept in `S.RSP_ERR` and `S.RSP_WORD`. -/
def State.respond (s : State) (w : Word) : State :=
  { s with rspValid := true, rspErr := false, rspWord := w, log := .response false w :: s.log }

/-- The sticky status bit that an error sets (R28, R31, R32). -/
def State.setSticky (s : State) : ErrKind → State
  | .op => { s with errOp := true }
  | .range => { s with errRange := true }

/-- `raise Err(kind)` (R171): `rsp_valid = 1`, `rsp_err = 1`, `rsp_word = 0`, kept in `S.RSP_ERR` and `S.RSP_WORD`,
and the sticky bit of the kind; nothing else changes. There is no trap, vector or mode (R176). -/
def State.raiseErr (s : State) (kind : ErrKind) : State :=
  { s.setSticky kind with rspValid := true, rspErr := true, rspWord := 0, log := .response true 0 :: s.log }

/-! ## The emitter's position and reset -/

/-- All position counters at 0 in the given phase (R24, R141). -/
def State.startAt (s : State) (ph : Phase) : State :=
  { s with phase := ph, hdrI := 0, row := 0, col := 0, dup := false, chan := .r }

/-- What `rst = 1` does (R38, R190): the block's registers at their reset values, whatever it was doing; the ROM, IMG
and the parameter unchanged (R193); the input ports stay as the host drives them. `S.PIX_RGB` is unspecified after
reset (R38): notes/assumptions/9.md. -/
def State.resetBlock (s : State) : State :=
  { s.startAt .idle with
    expand := false, done := false, errOp := false, errRange := false
    rspWord := 0x00000000, rspErr := false, rspValid := false, pixRgb := Rgb.black }

/-- The transfer of one stream byte on the output port (R150). -/
def State.transfer (s : State) (data : Byte) (last : Bool) : State :=
  { s with log := .byte data last :: s.log }

end Sys2Proof.Machine
end

