-- ==== Sys2Proof/Machine/Operands.lean ====
section
/-! DEFINITION. How operands are formed: the CAU's range check and address arithmetic (41_cell_address.md), the PCD's
selector, nibbles and colour resolution (42_pixel_color_decoder.md), and the response word layouts
(30_encoding.md rule R82). -/

namespace Sys2Proof.Machine

/-! ## Cell address unit -/

/-- The CAU's range check (R101): the position in the 160 x 200 grid, or none when `oor = 1`. The other outputs are
unspecified then (R113, U1), so the arithmetic below takes grid positions only (notes/assumptions/14.md). -/
def gridPos (col row : Byte) : Option (Col × Row) :=
  if h : col.toNat ≤ 159 ∧ row.toNat ≤ 199 then
    some (⟨col.toNat, Nat.lt_succ_of_le h.1⟩, ⟨row.toNat, Nat.lt_succ_of_le h.2⟩)
  else none

/-- `bm_off = (col / 4) * 8 + (row % 8) + (row / 8) * 320` (R102), 13 bits. -/
def bmOff (col : Col) (row : Row) : BitVec 13 :=
  BitVec.ofNat 13 (col.val / 4 * 8 + row.val % 8 + row.val / 8 * 320)

/-- `attr_off = (col / 4) + (row / 8) * 40` (R103), 10 bits. -/
def attrOff (col : Col) (row : Row) : BitVec 10 :=
  BitVec.ofNat 10 (col.val / 4 + row.val / 8 * 40)

/-- `pair = col % 4` (R104), 2 bits. -/
def pairIndex (col : Col) : BitVec 2 := BitVec.ofNat 2 (col.val % 4)

/-! ## Pixel colour decoder -/

/-- `MASK[p]` (R121). -/
def selMask (p : BitVec 2) : Byte :=
  match p.toFin with
  | 0 => 0xC0
  | 1 => 0x30
  | 2 => 0x0C
  | 3 => 0x03

/-- `SHIFT[p]` (R121). -/
def selShift (p : BitVec 2) : Nat :=
  match p.toFin with
  | 0 => 6
  | 1 => 4
  | 2 => 2
  | 3 => 0

/-- `selector(b, p) = (b & MASK[p]) >> SHIFT[p]` (R121), 2 bits. -/
def selector (b : Byte) (p : BitVec 2) : BitVec 2 := ((b &&& selMask p) >>> selShift p).setWidth 2

/-- Bits 7-4 of a byte (R60). -/
def highNibble (b : Byte) : BitVec 4 := b.extractLsb' 4 4

/-- Bits 3-0 of a byte (R60). -/
def lowNibble (b : Byte) : BitVec 4 := b.extractLsb' 0 4

/-- `bg_index(g)` (R124), or none where the model faults (R175). -/
def bgIndex (policy : BgPolicy) (g : Byte) : Option (BitVec 4) :=
  match policy with
  | .mask => some (lowNibble g)
  | .fault => if highNibble g = 0 then some (lowNibble g) else none

/-- `resolve(s, a, b, g)` (R123): four cases and no default (R126); none only where `bg_index` faults. -/
def resolve (policy : BgPolicy) (sel : BitVec 2) (attrA attrB bg : Byte) : Option (BitVec 4) :=
  match sel.toFin with
  | 0 => bgIndex policy bg
  | 1 => some (highNibble attrA)
  | 2 => some (lowNibble attrA)
  | 3 => some (lowNibble attrB)

/-- A channel of a triple (R145). -/
def channel (t : Rgb) : Chan → Byte
  | .r => t.r
  | .g => t.g
  | .b => t.b

/-! ## Response words (R82) -/

/-- An RGB triple as 24 bits, `{R[23:16], G[15:8], B[7:0]}` (R27). -/
def rgbBits (t : Rgb) : BitVec 24 := t.r ++ t.g ++ t.b

/-- LOOKUP: `{8'b0, R, G, B}`. -/
def lookupWord (t : Rgb) : Word := 0#8 ++ rgbBits t

/-- ADDR: `{6'b0, attr_off[9:0], 3'b0, bm_off[12:0]}`. -/
def addrWord (attr : BitVec 10) (bm : BitVec 13) : Word := 0#6 ++ attr ++ 0#3 ++ bm

/-- SEL: `{30'b0, sel[1:0]}`. -/
def selWord (sel : BitVec 2) : Word := 0#30 ++ sel

/-- RESOLVE: `{28'b0, idx[3:0]}`. -/
def resolveWord (idx : BitVec 4) : Word := 0#28 ++ idx

/-- PIXEL: `{2'b0, sel[1:0], idx[3:0], R, G, B}`. -/
def pixelWord (sel : BitVec 2) (idx : BitVec 4) (t : Rgb) : Word := 0#2 ++ sel ++ idx ++ rgbBits t

end Sys2Proof.Machine
end

