-- ==== Sys2Proof/Machine/Flags.lean ====
section
/-! DEFINITION. The STATUS vector (10_state.md rule R28). The block has no arithmetic flags and no condition codes
(R34); its only flags are these five bits. -/

namespace Sys2Proof.Machine

/-- `status[0]` (R29): a stream is in progress. Not a register. -/
def State.busy (s : State) : Bool := s.phase != .idle

/-- `status[4:0]` (R28): EXP, ERR_RANGE, ERR_OP, DONE, BUSY from bit 4 down to bit 0. -/
def State.status (s : State) : BitVec 5 :=
  BitVec.ofBool s.expand ++ BitVec.ofBool s.errRange ++ BitVec.ofBool s.errOp ++ BitVec.ofBool s.done ++
    BitVec.ofBool s.busy

end Sys2Proof.Machine
end

