-- ==== Sys2Proof/Machine/CellAddress.lean ====
section
/-! DEFINITION. Cell address unit (41_cell_address.md): ADDR. -/

namespace Sys2Proof.Machine

/-- ADDR (R109): the two offsets of one pixel, or ERR_RANGE outside the grid (R173). -/
def execAddr (col row : Byte) (s : State) : Host.Outcome State Fault Refusal :=
  match gridPos col row with
  | none => .next (s.raiseErr .range)
  | some (c, r) => .next (s.respond (addrWord (attrOff c r) (bmOff c r)))

end Sys2Proof.Machine
end

