-- ==== Sys2Proof/Machine/PaletteRom.lean ====
section
/-! DEFINITION. Palette ROM lookup (40_palette_rom.md): LOOKUP. -/

namespace Sys2Proof.Machine

/-- LOOKUP (R91): read one palette entry. Every index is legal (R92). -/
def execLookup (idx : BitVec 4) (s : State) : Host.Outcome State Fault Refusal :=
  .next (s.respond (lookupWord (s.romRead idx)))

end Sys2Proof.Machine
end

