-- ==== Sys2Proof/Machine/PixelDecoder.lean ====
section
/-! DEFINITION. Pixel colour decoder and the per-pixel datapath (42_pixel_color_decoder.md): SEL, RESOLVE, PIXEL. -/

namespace Sys2Proof.Machine

/-- What the datapath gives for one pixel (R130): selector, index, triple. -/
structure PixelOut where
  sel : BitVec 2
  idx : BitVec 4
  rgb : Rgb
deriving DecidableEq, Repr

/-- The IMG addresses one pixel's colour depends on (R128): bitmap byte, plane A byte, plane B byte, background
byte. -/
def pixelAddrs (col : Col) (row : Row) : List Nat :=
  [bmBase + (bmOff col row).toNat, aBase + (attrOff col row).toNat, bBase + (attrOff col row).toNat, bgAddr]

/-- The selector of a pixel (R130): bit pair `col % 4` of its bitmap byte. -/
def State.pixelSel (s : State) (col : Col) (row : Row) : BitVec 2 :=
  selector (s.img.read (bmBase + (bmOff col row).toNat)) (pairIndex col)

/-- The colour index of a pixel (R130), or none where BG_HIGH_NIBBLE is taken (R175). -/
def State.pixelIdx (s : State) (col : Col) (row : Row) : Option (BitVec 4) :=
  resolve s.bgPolicy (s.pixelSel col row) (s.img.read (aBase + (attrOff col row).toNat))
    (s.img.read (bBase + (attrOff col row).toNat)) (s.img.read bgAddr)

/-- `pixel(IMG, col, row)` (R130), used by PIXEL and by RUN; none where BG_HIGH_NIBBLE is taken (R175). -/
def State.pixel (s : State) (col : Col) (row : Row) : Option PixelOut :=
  match s.pixelIdx col row with
  | none => none
  | some i => some { sel := s.pixelSel col row, idx := i, rgb := s.romRead i }

/-- `pixel_rgb(IMG, col, row)` (R130). -/
def State.pixelRgb (s : State) (col : Col) (row : Row) : Option Rgb :=
  match s.pixel col row with
  | none => none
  | some p => some p.rgb

/-- SEL (R122): extract one selector. -/
def execSel (byte : Byte) (pair : BitVec 2) (s : State) : Host.Outcome State Fault Refusal :=
  .next (s.respond (selWord (selector byte pair)))

/-- RESOLVE (R125): resolve a selector to a colour index; BG_HIGH_NIBBLE under `BG_POLICY = FAULT` (R175). -/
def execResolve (sel : BitVec 2) (attrA attrB bg : Byte) (s : State) : Host.Outcome State Fault Refusal :=
  match resolve s.bgPolicy sel attrA attrB bg with
  | none => .fault .bgHighNibble
  | some i => .next (s.respond (resolveWord i))

/-- PIXEL (R129): decode one pixel from IMG; ERR_RANGE outside the grid (R173), BG_HIGH_NIBBLE under
`BG_POLICY = FAULT` (R175). -/
def execPixel (col row : Byte) (s : State) : Host.Outcome State Fault Refusal :=
  match gridPos col row with
  | none => .next (s.raiseErr .range)
  | some (c, r) =>
    match s.pixel c r with
    | none => .fault .bgHighNibble
    | some p => .next (s.respond (pixelWord p.sel p.idx p.rgb))

end Sys2Proof.Machine
end

