-- ==== Sys2Proof/Machine/RasterEmitter.lean ====
section
/-! DEFINITION. Raster emitter (43_raster_emitter.md): RUN, the header, the emitter's step. -/

namespace Sys2Proof.Machine

/-- The three bytes of the declared width (R146): `160`, or `320` with expansion. -/
def widthText (e : Bool) : List Byte := if e then [0x33, 0x32, 0x30] else [0x31, 0x36, 0x30]

/-- `HDR(e)` (R146): "P6", newline, "# Created by koala2ppm", newline, width, " 200 255", newline, in ASCII (D13). -/
def header (e : Bool) : List Byte :=
  [0x50, 0x36, 0x0A] ++
  [0x23, 0x20, 0x43, 0x72, 0x65, 0x61, 0x74, 0x65, 0x64, 0x20, 0x62, 0x79, 0x20,
    0x6B, 0x6F, 0x61, 0x6C, 0x61, 0x32, 0x70, 0x70, 0x6D, 0x0A] ++
  widthText e ++
  [0x20, 0x32, 0x30, 0x30, 0x20, 0x32, 0x35, 0x35, 0x0A]

theorem header_length (e : Bool) : (header e).length = 38 := by cases e <;> rfl

/-- `HDR(e)[i]` (R146, R151). -/
def headerByte (e : Bool) (i : HdrIndex) : Byte := (header e)[i.val]'(by rw [header_length]; exact i.isLt)

/-- RUN (R141): start one conversion. No response is made; `S.RSP_WORD` and `S.RSP_ERR` keep their values. -/
def execRun (e : Bool) (s : State) : Host.Outcome State Fault Refusal :=
  .next { s.startAt .hdr with expand := e, done := false, rspValid := false }

/-- The byte the emitter presents (R150, R151): none while IDLE, and none where `pixel_rgb` faults (R175). -/
def State.streamByte (s : State) : Option Byte :=
  match s.phase with
  | .idle => none
  | .hdr => some (headerByte s.expand s.hdrI)
  | .pix =>
    match s.pixelRgb s.col s.row with
    | none => none
    | some t => some (channel t s.chan)

/-- `out_last` (R152). -/
def State.outLast (s : State) : Bool :=
  s.phase == .pix && s.row.val == 199 && s.col.val == 159 && s.chan == .b && (!s.expand || s.dup)

/-- The position after the last channel of a copy of a pixel (R151): second copy, next column, next row, or the end of
the stream. -/
def State.nextPixel (s : State) : State :=
  if s.expand = true ∧ s.dup = false then { s with chan := .r, dup := true }
  else if hc : s.col.val < 159 then
    { s with chan := .r, dup := false, col := ⟨s.col.val + 1, Nat.succ_lt_succ hc⟩ }
  else if hr : s.row.val < 199 then
    { s with chan := .r, dup := false, col := 0, row := ⟨s.row.val + 1, Nat.succ_lt_succ hr⟩ }
  else { s with chan := .r, dup := false, col := 0, row := 0, phase := .idle, done := true }

/-- The position after one transferred byte (R151). -/
def State.advance (s : State) : State :=
  match s.phase with
  | .idle => s
  | .hdr =>
    if h : s.hdrI.val < 37 then { s with hdrI := ⟨s.hdrI.val + 1, Nat.succ_lt_succ h⟩ }
    else { s with phase := .pix, hdrI := 0 }
  | .pix =>
    match s.chan with
    | .r => { s with chan := .g }
    | .g => { s with chan := .b }
    | .b => s.nextPixel

/-- `S.PIX_RGB` holds the triple of the pixel the emitter presents (R36, R68); when it is loaded no rule says
(notes/assumptions/9.md), here with the position. Outside PIX, and where `pixel_rgb` faults, it keeps its value. -/
def State.loadLatch (s : State) : State :=
  match s.phase with
  | .idle => s
  | .hdr => s
  | .pix =>
    match s.pixelRgb s.col s.row with
    | none => s
    | some t => { s with pixRgb := t }

/-- `emit_step()` (R151), taken when the emitter is not IDLE and `out_ready = 1`: the byte is transferred and the
position advances; where `pixel_rgb` faults nothing is emitted (R175). -/
def emitStep (s : State) : Host.Outcome State Fault Refusal :=
  match s.streamByte with
  | none => .fault .bgHighNibble
  | some b => .next ((s.transfer b s.outLast).advance.loadLatch)

end Sys2Proof.Machine
end

