-- ==== Sys2Proof/Machine/Dispatch.lean ====
section
/-! DEFINITION. One arm per constructor of Instr. -/

namespace Sys2Proof.Machine

def exec (i : Instr) (s : State) : Host.Outcome State Fault Refusal :=
  match i with
  | .lookup idx => Sys2Proof.Machine.execLookup idx s
  | .addr col row => Sys2Proof.Machine.execAddr col row s
  | .sel byte pair => Sys2Proof.Machine.execSel byte pair s
  | .resolve sel attrA attrB bg => Sys2Proof.Machine.execResolve sel attrA attrB bg s
  | .pixel col row => Sys2Proof.Machine.execPixel col row s
  | .run e => Sys2Proof.Machine.execRun e s

end Sys2Proof.Machine
end

