-- ==== Sys2Proof/Machine/HostPort.lean ====
section
/-! DEFINITION. The host agent's move (10_state.md rule R20; notes/assumptions/1.md). -/

namespace Sys2Proof.Machine

/-- A host write to IMG would fall into a stream or onto a waiting command (R57, R195). -/
def State.inFlight (s : State) : Bool := s.busy || s.cmdValid

/-- The host takes its next move, if it has one. An offer waits while an earlier one is still on the port, so
`cmd_word` stays as it is until the block accepts it (R70, R202), and so does `cmd_valid` (DESIGN CHOICE,
notes/assumptions/22.md). A write to IMG while BUSY or with a command in flight
is refused (R57, R195, U3). -/
def hostMove (s : State) : Host.Outcome State Fault Refusal :=
  match s.script with
  | [] => .next s
  | .wait :: rest => .next { s with script := rest }
  | .offer w :: rest =>
    if s.cmdValid then .next s else .next { s with script := rest, cmdValid := true, cmdWord := w }
  | .ready v :: rest => .next { s with script := rest, outReady := v }
  | .reset v :: rest => .next { s with script := rest, rst := v }
  | .writeImg a v :: rest =>
    if s.inFlight then .refused .imgWriteInFlight
    else .next { s with script := rest, img := s.img.write a.val v }

end Sys2Proof.Machine
end

