-- ==== Sys2Proof/Machine/Block.lean ====
section
/-! DEFINITION. What the block does with its ports in one step (30_encoding.md rules R70, R71; 43_raster_emitter.md
rule R150; 70_reset_and_hazards.md rules R190, R197). -/

namespace Sys2Proof.Machine

/-- The command on the port is taken (R70): the host then withdraws `cmd_valid`. -/
def State.takeCommand (s : State) : State := { s with cmdValid := false }

/-- The block accepts `cmd_word` (R70): a legal word is executed (R85), an illegal one is answered by ERR_OP and has no
other effect (R80, R172, R174). -/
def acceptCommand (s : State) : Host.Outcome State Fault Refusal :=
  match decode s.cmdWord with
  | .error _ => .next (s.takeCommand.raiseErr .op)
  | .ok i => exec i s.takeCommand

/-- One step of the block. `rst = 1` comes first (R190). While BUSY a byte is transferred if `out_ready = 1`, else the
emitter holds (R150), and no command is accepted (R70). While IDLE an offered command is accepted. -/
def blockStep (s : State) : Host.Outcome State Fault Refusal :=
  if s.rst then .next s.resetBlock
  else
    match s.phase with
    | .idle => if s.cmdValid then acceptCommand s.noResponse else .next s.noResponse
    | .hdr => if s.outReady then emitStep s.noResponse else .next s.noResponse
    | .pix => if s.outReady then emitStep s.noResponse else .next s.noResponse

/-- One step of the machine: the host's move, then the block (R20, R197). -/
def hostThenBlock (s : State) : Host.Outcome State Fault Refusal :=
  match hostMove s with
  | .next s' => blockStep s'
  | .fault f => .fault f
  | .refused r => .refused r

/-- The machine about to accept the operation word `w`: IDLE, not in reset, no other command on the port, and the offer
of `w` the host's next move (notes/assumptions/2.md). -/
def State.withCommand (s : State) (w : Word) : State :=
  { s.startAt .idle with rst := false, cmdValid := false, script := .offer w :: s.script }

end Sys2Proof.Machine
end

