-- ==== Sys2Proof/Machine/Step.lean ====
section
/-! DEFINITION. The step function, which only calls Machine/Block.lean, and the placing of one operation word. -/

namespace Sys2Proof.Machine

/-- One step: next, fault or refusal. -/
def step (s : State) : Host.Outcome State Fault Refusal := hostThenBlock s

/-- `s` about to run the operation word whose bits are `w` (every row has 32 bits): the very next step accepts it
(notes/assumptions/2.md, 19.md). -/
def State.withFetchWord (s : State) (nbits w : Nat) : State := s.withCommand (BitVec.ofNat 32 (w % 2 ^ nbits))

end Sys2Proof.Machine
end

