-- ==== Sys2Proof/Machine/Ports.lean ====
section
/-! DEFINITION. The output ports (10_state.md rule R21) as functions of the state. -/

namespace Sys2Proof.Machine

/-- `cmd_ready` (R21, R29): NOT BUSY, and 0 while `rst = 1` (R190; notes/assumptions/17.md). -/
def State.cmdReady (s : State) : Bool := !s.busy && !s.rst

/-- `out_valid` (R150): a stream byte is held, and 0 while `rst = 1` (R190). -/
def State.outValid (s : State) : Bool := s.busy && !s.rst

/-- `out_data` (R150): the byte at the emitter's position; no value while `out_valid = 0` (U7;
notes/assumptions/12.md). -/
def State.outData (s : State) : Option Byte := if s.outValid then s.streamByte else none

/-- `rsp_err` (R35). -/
def State.rspErrPort (s : State) : Bool := s.rspErr

/-- `rsp_word` (R35). -/
def State.rspWordPort (s : State) : Word := s.rspWord

/-- The values of `img_addr` in a step from `s` in which the pixel at `(col, row)` is read (R54, R128). All four bytes
are listed, read or not; number and order are not observable (U9; notes/assumptions/13.md). -/
def State.imgReads (s : State) : List Nat :=
  if s.rst then []
  else
    match s.phase with
    | .pix => pixelAddrs s.col s.row
    | .hdr => []
    | .idle =>
      if s.cmdValid then
        match decode s.cmdWord with
        | .ok (.pixel col row) => match gridPos col row with
          | some (c, r) => pixelAddrs c r
          | none => []
        | .ok (.lookup _) | .ok (.addr _ _) | .ok (.sel _ _) | .ok (.resolve _ _ _ _) | .ok (.run _) => []
        | .error _ => []
      else []

/-- `img_rdata` (R54): the byte of IMG at the address presented in the same step. -/
def State.imgRdata (s : State) (imgAddr : Nat) : Byte := s.img.read imgAddr

end Sys2Proof.Machine
end

