-- ==== Sys2Proof/Machine/Stream.lean ====
section
/-! DEFINITION. The stream of one RUN as a fixed function (43_raster_emitter.md rules R143, R148, R149), apart from the
emitter that produces it. -/

namespace Sys2Proof.Machine

/-- The triples of the 160 x 200 grid, by column and row (R143). -/
abbrev Grid := Col → Row → Rgb

/-- The bytes of one triple: R, then G, then B (R145). -/
def tripleBytes (t : Rgb) : List Byte := [t.r, t.g, t.b]

/-- The bytes of one pixel: its triple once, or twice with expansion (R142, R143). -/
def pixelBytes (e : Bool) (t : Rgb) : List Byte := if e then tripleBytes t ++ tripleBytes t else tripleBytes t

/-- One row of the body, columns ascending (R143). -/
def rowBytes (px : Grid) (e : Bool) (row : Row) : List Byte :=
  (List.finRange 160).flatMap fun col => pixelBytes e (px col row)

/-- `BODY(IMG, e)` (R143), rows ascending. -/
def body (px : Grid) (e : Bool) : List Byte := (List.finRange 200).flatMap (rowBytes px e)

/-- `STREAM(IMG, e) = HDR(e) ++ BODY(IMG, e)` (R143). -/
def stream (px : Grid) (e : Bool) : List Byte := header e ++ body px e

/-- `OUT_W` (R6, R148). -/
def outW (e : Bool) : Nat := if e then 320 else 160

/-- Length of the whole stream (R149). -/
def streamLength (e : Bool) : Nat := 38 + outW e * 200 * 3

/-- What the output port delivers for the stream, in order: each byte with `out_last` on the last one (R152). -/
def streamEvents (px : Grid) (e : Bool) : List PortEvent :=
  (stream px e).mapIdx fun i b => .byte b (i + 1 == streamLength e)

/-- `IMG` decodes to the grid `px` with no fault: the premise "no fault" of R175, which always holds under
`BG_POLICY = MASK`. -/
def State.Decodes (s : State) (px : Grid) : Prop := ∀ col row, s.pixelRgb col row = some (px col row)

/-- Output column of a copy of a pixel (R148). -/
def outColumn (e : Bool) (col : Col) (dup : Bool) : Nat :=
  if e then 2 * col.val + dup.toNat else col.val

/-- 0 = R, 1 = G, 2 = B (R23, R148). -/
def chanIndex : Chan → Nat
  | .r => 0
  | .g => 1
  | .b => 2

/-- Number of a byte of the body in the stream, counting from 0 (R148). -/
def byteNumber (e : Bool) (row : Row) (col : Col) (dup : Bool) (c : Chan) : Nat :=
  38 + 3 * (row.val * outW e + outColumn e col dup) + chanIndex c

/-- Number in the stream of the byte the emitter presents (R24, R148); no byte while IDLE. -/
def State.position (s : State) : Option Nat :=
  match s.phase with
  | .idle => none
  | .hdr => some s.hdrI.val
  | .pix => some (byteNumber s.expand s.row s.col s.dup s.chan)

end Sys2Proof.Machine
end

