-- ==== Sys2Proof/Safety.lean ====
section
/-! DEFINITION. The terms the claims are stated in: the invariant of the machine, what it means to accept a command,
a run, and which host moves a run allows. -/

namespace Sys2Proof.Machine

/-- What holds after reset and after every step: the counter invariants of 10_state.md rule R26 with what carries them
from step to step, and the canonical form of IMG. The bounds of R26 are the types of the fields. -/
structure State.Inv (s : State) : Prop where
  /-- IMG is in its canonical form. -/
  imgWf : s.img.wf = true
  /-- `PALETTE(0) = (0, 0, 0)` (R93). -/
  romZero : s.romRead 0 = Rgb.black
  /-- `S.dup = 0` whenever `S.EXP = 0` (R26). -/
  dupNeedsExpand : s.expand = false → s.dup = false
  /-- All counters are 0 while IDLE (R26). -/
  idleAtZero : s.phase = .idle → s.hdrI = 0 ∧ s.row = 0 ∧ s.col = 0 ∧ s.dup = false ∧ s.chan = .r
  /-- The pixel counters are 0 during the header (R141, R151). -/
  hdrAtZero : s.phase = .hdr → s.row = 0 ∧ s.col = 0 ∧ s.dup = false ∧ s.chan = .r
  /-- The header counter is 0 during the pixels (R151). -/
  pixAtZero : s.phase = .pix → s.hdrI = 0
  /-- DONE is 0 while a stream is in progress (R30). -/
  busyNotDone : s.phase ≠ .idle → s.done = false
  /-- An error response is the zero word (R82, R171). -/
  errorWordZero : s.rspErr = true → s.rspWord = 0
  /-- An error on the response port is recorded in STATUS (R171, R177). -/
  errorRecorded : s.rspErr = true → s.errOp = true ∨ s.errRange = true
  /-- `S.PIX_RGB` is the triple recomputed from IMG of the pixel being presented (R36, R68); when it is loaded is the
  model's choice (notes/assumptions/9.md). -/
  latchCurrent : s.phase = .pix → ∀ t, s.pixelRgb s.col s.row = some t → s.pixRgb = t

/-- The block is about to accept a command in this step: IDLE, not in reset, `cmd_valid = 1` (R70, R190). -/
def State.Accepts (s : State) : Prop := s.phase = .idle ∧ s.rst = false ∧ s.cmdValid = true

/-- The state an accepted operation executes in: the command is taken off the port, no response is presented yet. -/
def State.accepted (s : State) : State := { s with cmdValid := false, rspValid := false }

/-- The block transfers a stream byte in this step (R150). -/
def State.Transfers (s : State) : Prop := s.phase ≠ .idle ∧ s.rst = false ∧ s.outReady = true

/-- Wherever the word is accepted, the step answers it by the error response with ERR_OP and has no other effect (R80,
R171, R172). -/
def RaisesErrOp (w : Word) : Prop :=
  ∀ s m : State, hostMove s = .next m → m.Accepts → m.cmdWord = w →
    step s = .next { m with
      cmdValid := false, rspValid := true, rspErr := true, rspWord := 0, errOp := true,
      log := .response true 0 :: m.log }

/-- `k` steps that all go on. -/
def Runs (k : Nat) (s t : State) : Prop := Sys2Proof.core.run k s = .next t

/-- No host move of the list asserts reset. -/
def noReset (moves : List HostMove) : Prop := ∀ m ∈ moves, m ≠ .reset true

end Sys2Proof.Machine
end

