-- ==== Sys2Proof/Certificates/Slice0/Obligations.lean ====
section
/-! DEFINITION. The statements about this model, for the provers. Each docstring names the rules it formalises. -/

open Sys2Proof Sys2Proof.Machine

/-! ## Encoding -/

/-- R88: every worked encoding, from the text of the line to its word; and each word decodes to that operation. -/
def Obligations.WorkedEncodingsHold : Prop :=
  (assembleText "LOOKUP 3" = some 0x10000003 ∧ decode 0x10000003 = .ok (.lookup 3)) ∧
  (assembleText "ADDR 5, 9" = some 0x20000905 ∧ decode 0x20000905 = .ok (.addr 5 9)) ∧
  (assembleText "ADDR 159, 199" = some 0x2000C79F ∧ decode 0x2000C79F = .ok (.addr 159 199)) ∧
  (assembleText "SEL 0xE4, 1" = some 0x300001E4 ∧ decode 0x300001E4 = .ok (.sel 0xE4 1)) ∧
  (assembleText "RESOLVE 3, 0x1F, 0xF3, 0x05" = some 0x43F31F05 ∧
    decode 0x43F31F05 = .ok (.resolve 3 0x1F 0xF3 0x05)) ∧
  (assembleText "PIXEL 0, 0" = some 0x50000000 ∧ decode 0x50000000 = .ok (.pixel 0 0)) ∧
  (assembleText "RUN 0" = some 0x60000000 ∧ decode 0x60000000 = .ok (.run false)) ∧
  (assembleText "RUNX" = some 0x60000001 ∧ decode 0x60000001 = .ok (.run true))

/-- Decode and encode agree in both directions: a word decodes to an operation exactly when it is that operation's
encoding, so every operation has one word, and no bit of a legal word is dropped (R74 to R79, R85). -/
def Obligations.DecodeIffEncode : Prop :=
  ∀ (w : Word) (i : Instr), decode w = .ok i ↔ encode i = w

/-- R80: a word is legal exactly when one row of the op code map selects it, and never two; an illegal word has a
reserved op code or a reserved bit of its format set; it is answered by the error response with ERR_OP and has no other
effect. -/
def Obligations.LegalIffOneRowSelects : Prop :=
  (∀ w : Word, (∃ i, decode w = .ok i) ↔ ∃ r ∈ opTable, w &&& r.mask = r.matchBits) ∧
  (∀ w : Word, ∀ r ∈ opTable, ∀ r' ∈ opTable,
    w &&& r.mask = r.matchBits → w &&& r'.mask = r'.matchBits → r = r') ∧
  (∀ w : Word, decode w = .error .reservedOp ↔ w.toNat / 2 ^ 28 = 0 ∨ 7 ≤ w.toNat / 2 ^ 28) ∧
  (∀ w : Word, decode w = .error .reservedBit ↔
    ∃ r ∈ opTable, w.toNat / 2 ^ 28 = r.matchBits.toNat / 2 ^ 28 ∧ w &&& r.mask ≠ r.matchBits) ∧
  (∀ (w : Word) (e : Illegal), decode w = .error e → RaisesErrOp w)

/-- R86 and R87: for every line form an assembler refuses exactly the lines with an operand that does not fit its field;
where every operand fits, in range or not, the word is the operation's, and `.word w` gives `w`, legal or not. -/
def Obligations.AssemblerRefusesWideOperands : Prop :=
  (∀ n, assemble (.lookup n) = none ↔ 16 ≤ n) ∧
  (∀ c r, assemble (.addr c r) = none ↔ 256 ≤ c ∨ 256 ≤ r) ∧
  (∀ b p, assemble (.sel b p) = none ↔ 256 ≤ b ∨ 4 ≤ p) ∧
  (∀ s a b g, assemble (.resolve s a b g) = none ↔ 4 ≤ s ∨ 256 ≤ a ∨ 256 ≤ b ∨ 256 ≤ g) ∧
  (∀ c r, assemble (.pixel c r) = none ↔ 256 ≤ c ∨ 256 ≤ r) ∧
  (∀ e, assemble (.run (some e)) = none ↔ 2 ≤ e) ∧
  (∀ n, assemble (.word n) = none ↔ 2 ^ 32 ≤ n) ∧
  (∀ i : BitVec 4, assemble (.lookup i.toNat) = some (encode (.lookup i))) ∧
  (∀ (c r : Byte), assemble (.addr c.toNat r.toNat) = some (encode (.addr c r))) ∧
  (∀ (b : Byte) (p : BitVec 2), assemble (.sel b.toNat p.toNat) = some (encode (.sel b p))) ∧
  (∀ (s : BitVec 2) (a b g : Byte),
    assemble (.resolve s.toNat a.toNat b.toNat g.toNat) = some (encode (.resolve s a b g))) ∧
  (∀ (c r : Byte), assemble (.pixel c.toNat r.toNat) = some (encode (.pixel c r))) ∧
  (∀ e : Bool, assemble (.run (some e.toNat)) = some (encode (.run e))) ∧
  assemble (.run none) = some (encode (.run false)) ∧ assemble .runx = some (encode (.run true)) ∧
  (∀ w : Word, assemble (.word w.toNat) = some w)

/-! ## Cell address unit -/

/-- R101 to R104: inside the grid the CAU gives the source's formulas, and outside it gives no position. -/
def Obligations.AddressFormulasHold : Prop :=
  (∀ col row : Byte, col.toNat ≤ 159 → row.toNat ≤ 199 → ∃ c r, gridPos col row = some (c, r) ∧
    (bmOff c r).toNat = col.toNat / 4 * 8 + row.toNat % 8 + row.toNat / 8 * 320 ∧
    (attrOff c r).toNat = col.toNat / 4 + row.toNat / 8 * 40 ∧
    (pairIndex c).toNat = col.toNat % 4) ∧
  (∀ col row : Byte, 160 ≤ col.toNat ∨ 200 ≤ row.toNat → gridPos col row = none)

/-- R106 and R107: the ranges of the offsets with their extremes, no intermediate value above 7999, and the tie between
the two offsets. -/
def Obligations.AddressRangesAndTie : Prop :=
  (∀ (c : Col) (r : Row), (bmOff c r).toNat ≤ 7999 ∧ (attrOff c r).toNat ≤ 999 ∧
    c.val / 4 * 8 ≤ 7999 ∧ r.val / 8 * 320 ≤ 7999 ∧ r.val / 8 * 40 ≤ 7999 ∧
    c.val / 4 * 8 + r.val % 8 ≤ 7999 ∧
    (bmOff c r).toNat = c.val / 4 * 8 + r.val % 8 + r.val / 8 * 320 ∧
    (attrOff c r).toNat = c.val / 4 + r.val / 8 * 40) ∧
  ((bmOff 0 0).toNat = 0 ∧ (attrOff 0 0).toNat = 0 ∧
    (bmOff 159 199).toNat = 7999 ∧ (attrOff 159 199).toNat = 999) ∧
  (∀ (c : Col) (r : Row), (bmOff c r).toNat = 8 * (attrOff c r).toNat + r.val % 8 ∧
    (bmOff c r).extractLsb' 0 3 = BitVec.ofNat 3 r.val ∧ (bmOff c r).extractLsb' 3 10 = attrOff c r)

/-- R108: the bit-level form gives the same outputs. -/
def Obligations.AddressBitForm : Prop :=
  ∀ (col row : Byte) (c : Col) (r : Row), gridPos col row = some (c, r) →
    attrOff c r = (row.extractLsb' 3 5).setWidth 10 * 40#10 + (col.extractLsb' 2 6).setWidth 10 ∧
    attrOff c r = ((row.extractLsb' 3 5).setWidth 10 <<< 5) + ((row.extractLsb' 3 5).setWidth 10 <<< 3) +
      (col.extractLsb' 2 6).setWidth 10 ∧
    bmOff c r = attrOff c r ++ row.extractLsb' 0 3 ∧
    pairIndex c = col.extractLsb' 0 2

/-- R110: four pixels of a line share a bitmap byte and differ in the pair, 32 pixels of a cell share an attribute
offset, and position to (bitmap offset, pair) is a bijection. -/
def Obligations.AddressMapIsBijection : Prop :=
  (∀ (c c' : Col) (r : Row), c.val / 4 = c'.val / 4 → bmOff c r = bmOff c' r) ∧
  (∀ (c : Col), (pairIndex c).toNat = c.val % 4) ∧
  (∀ (c c' : Col) (r r' : Row), c.val / 4 = c'.val / 4 → r.val / 8 = r'.val / 8 → attrOff c r = attrOff c' r') ∧
  (∀ (c c' : Col) (r r' : Row), bmOff c r = bmOff c' r' → pairIndex c = pairIndex c' → c = c' ∧ r = r') ∧
  (∀ (b p : Nat), b < 8000 → p < 4 → ∃ c r, (bmOff c r).toNat = b ∧ (pairIndex c).toNat = p)

/-! ## Pixel colour decoder -/

/-- R121: masks and shifts of the four pairs, and the selector as the bits `b[7-2p : 6-2p]`. -/
def Obligations.SelectorIsItsBitPair : Prop :=
  (selMask 0 = 0xC0 ∧ selMask 1 = 0x30 ∧ selMask 2 = 0x0C ∧ selMask 3 = 0x03) ∧
  (selShift 0 = 6 ∧ selShift 1 = 4 ∧ selShift 2 = 2 ∧ selShift 3 = 0) ∧
  ∀ (b : Byte) (p : BitVec 2),
    (selector b p).toNat = (b.toNat &&& (selMask p).toNat) >>> selShift p ∧
    (selector b p).toNat = b.toNat / 2 ^ (6 - 2 * p.toNat) % 4

/-- R123 and R124: the four colour sources, and the background index under both policies. -/
def Obligations.ColourSourcesHold : Prop :=
  (∀ (p : BgPolicy) (a b g : Byte), resolve p 0 a b g = bgIndex p g ∧
    resolve p 1 a b g = some (BitVec.ofNat 4 (a.toNat / 16)) ∧
    resolve p 2 a b g = some (BitVec.ofNat 4 (a.toNat % 16)) ∧
    resolve p 3 a b g = some (BitVec.ofNat 4 (b.toNat % 16))) ∧
  (∀ g : Byte, bgIndex .mask g = some (BitVec.ofNat 4 (g.toNat % 16))) ∧
  (∀ g : Byte, bgIndex .fault g = if g.toNat < 16 then some (BitVec.ofNat 4 g.toNat) else none) ∧
  (∀ (p : BgPolicy) (g : Byte), g.toNat < 16 → bgIndex p g = some (BitVec.ofNat 4 g.toNat)) ∧
  State.reset.bgPolicy = .mask

/-- R128 and R131: a pixel depends on the four IMG bytes of R128, the ROM and the policy alone. -/
def Obligations.PixelDependsOnFourBytes : Prop :=
  ∀ (s t : State) (c : Col) (r : Row),
    s.img.read (2 + (c.val / 4 * 8 + r.val % 8 + r.val / 8 * 320)) =
      t.img.read (2 + (c.val / 4 * 8 + r.val % 8 + r.val / 8 * 320)) →
    s.img.read (8002 + (c.val / 4 + r.val / 8 * 40)) = t.img.read (8002 + (c.val / 4 + r.val / 8 * 40)) →
    s.img.read (9002 + (c.val / 4 + r.val / 8 * 40)) = t.img.read (9002 + (c.val / 4 + r.val / 8 * 40)) →
    s.img.read 10002 = t.img.read 10002 → s.rom = t.rom → s.bgPolicy = t.bgPolicy →
    s.pixel c r = t.pixel c r

/-- R132: with selector 0 a pixel is the palette entry of the background index, whatever the attribute bytes hold. -/
def Obligations.SelectorZeroIgnoresAttributes : Prop :=
  ∀ (s : State) (c : Col) (r : Row), s.pixelSel c r = 0 →
    s.pixelRgb c r = (bgIndex s.bgPolicy (s.img.read 10002)).map s.romRead

/-! ## Results of the operations, with what they leave unchanged -/

/-- LOOKUP (R91), for every index and state: its words and the illegal ones, its response, every other field unchanged,
STATUS unchanged; index 0 gives black where the ROM has its entry 0. -/
def Obligations.LookupResult : Prop :=
  (∀ w : Word, w &&& 0xFFFFFFF0 = 0x10000000 → decode w = .ok (.lookup (w.extractLsb' 0 4))) ∧
  (∀ w : Word, w.extractLsb' 28 4 = 1 → w.extractLsb' 4 24 ≠ 0 → RaisesErrOp w) ∧
  (∀ (idx : BitVec 4) (s : State), exec (.lookup idx) s = .next { s with
    rspValid := true, rspErr := false,
    rspWord := 0#8 ++ (s.rom[idx.toNat]'(idx.isLt)).r ++ (s.rom[idx.toNat]'(idx.isLt)).g ++
      (s.rom[idx.toNat]'(idx.isLt)).b,
    log := .response false (0#8 ++ (s.rom[idx.toNat]'(idx.isLt)).r ++ (s.rom[idx.toNat]'(idx.isLt)).g ++
      (s.rom[idx.toNat]'(idx.isLt)).b) :: s.log }) ∧
  (∀ (idx : BitVec 4) (s t : State), exec (.lookup idx) s = .next t → t.status = s.status) ∧
  (∀ s t : State, s.Inv → exec (.lookup 0) s = .next t → t.rspWord = 0x00000000)

/-- ADDR (R109), for every coordinate and state: its words and the illegal ones; inside the grid the two offsets; outside
ERR_RANGE; every other field unchanged. -/
def Obligations.AddrResult : Prop :=
  (∀ w : Word, w &&& 0xFFFF0000 = 0x20000000 → decode w = .ok (.addr (w.extractLsb' 0 8) (w.extractLsb' 8 8))) ∧
  (∀ w : Word, w.extractLsb' 28 4 = 2 → w.extractLsb' 16 12 ≠ 0 → RaisesErrOp w) ∧
  (∀ (col row : Byte) (s : State), col.toNat ≤ 159 → row.toNat ≤ 199 → exec (.addr col row) s = .next { s with
    rspValid := true, rspErr := false,
    rspWord := 0#6 ++ BitVec.ofNat 10 (col.toNat / 4 + row.toNat / 8 * 40) ++ 0#3 ++
      BitVec.ofNat 13 (col.toNat / 4 * 8 + row.toNat % 8 + row.toNat / 8 * 320),
    log := .response false (0#6 ++ BitVec.ofNat 10 (col.toNat / 4 + row.toNat / 8 * 40) ++ 0#3 ++
      BitVec.ofNat 13 (col.toNat / 4 * 8 + row.toNat % 8 + row.toNat / 8 * 320)) :: s.log }) ∧
  (∀ (col row : Byte) (s : State), 160 ≤ col.toNat ∨ 200 ≤ row.toNat → exec (.addr col row) s = .next { s with
    rspValid := true, rspErr := true, rspWord := 0, errRange := true, log := .response true 0 :: s.log })

/-- SEL (R122), for every byte, pair and state: its words, its response, every other field unchanged. -/
def Obligations.SelResult : Prop :=
  (∀ w : Word, w &&& 0xFFFFFC00 = 0x30000000 → decode w = .ok (.sel (w.extractLsb' 0 8) (w.extractLsb' 8 2))) ∧
  (∀ w : Word, w.extractLsb' 28 4 = 3 → w.extractLsb' 10 18 ≠ 0 → RaisesErrOp w) ∧
  (∀ (byte : Byte) (pair : BitVec 2) (s : State), exec (.sel byte pair) s = .next { s with
    rspValid := true, rspErr := false,
    rspWord := BitVec.ofNat 32 (byte.toNat / 2 ^ (6 - 2 * pair.toNat) % 4),
    log := .response false (BitVec.ofNat 32 (byte.toNat / 2 ^ (6 - 2 * pair.toNat) % 4)) :: s.log })

/-- RESOLVE (R125), for every operand and state: its words, the index of each selector with every other field unchanged,
the operands a selector does not choose without effect, and BG_HIGH_NIBBLE exactly under FAULT with selector 0 and a
background byte of 16 or more. -/
def Obligations.ResolveResult : Prop :=
  (∀ w : Word, w &&& 0xFC000000 = 0x40000000 → decode w =
    .ok (.resolve (w.extractLsb' 24 2) (w.extractLsb' 8 8) (w.extractLsb' 16 8) (w.extractLsb' 0 8))) ∧
  (∀ w : Word, w.extractLsb' 28 4 = 4 → w.extractLsb' 26 2 ≠ 0 → RaisesErrOp w) ∧
  (∀ (sel : BitVec 2) (a b g : Byte) (s : State), ¬(s.bgPolicy = .fault ∧ sel = 0 ∧ 16 ≤ g.toNat) →
    ∃ n : Nat, (sel = 0 → n = g.toNat % 16) ∧ (sel = 1 → n = a.toNat / 16) ∧ (sel = 2 → n = a.toNat % 16) ∧
      (sel = 3 → n = b.toNat % 16) ∧
      exec (.resolve sel a b g) s = .next { s with
        rspValid := true, rspErr := false, rspWord := BitVec.ofNat 32 n,
        log := .response false (BitVec.ofNat 32 n) :: s.log }) ∧
  (∀ (sel : BitVec 2) (a b g : Byte) (s : State), s.bgPolicy = .fault → sel = 0 → 16 ≤ g.toNat →
    exec (.resolve sel a b g) s = .fault .bgHighNibble)

/-- PIXEL (R129, R130), for every coordinate and state: its words; inside the grid selector, index and triple from the
bytes of IMG, every other field unchanged; outside ERR_RANGE; BG_HIGH_NIBBLE only under FAULT with selector 0 and a
background byte of 16 or more. -/
def Obligations.PixelResult : Prop :=
  (∀ w : Word, w &&& 0xFFFF0000 = 0x50000000 → decode w = .ok (.pixel (w.extractLsb' 0 8) (w.extractLsb' 8 8))) ∧
  (∀ w : Word, w.extractLsb' 28 4 = 5 → w.extractLsb' 16 12 ≠ 0 → RaisesErrOp w) ∧
  (∀ (col row : Byte) (s : State) (bm a b g sel : Nat), col.toNat ≤ 159 → row.toNat ≤ 199 →
    bm = (s.img.read (2 + (col.toNat / 4 * 8 + row.toNat % 8 + row.toNat / 8 * 320))).toNat →
    a = (s.img.read (8002 + (col.toNat / 4 + row.toNat / 8 * 40))).toNat →
    b = (s.img.read (9002 + (col.toNat / 4 + row.toNat / 8 * 40))).toNat →
    g = (s.img.read 10002).toNat →
    sel = bm / 2 ^ (6 - 2 * (col.toNat % 4)) % 4 →
    (¬(s.bgPolicy = .fault ∧ sel = 0 ∧ 16 ≤ g) →
      ∃ idx : BitVec 4, (sel = 0 → idx.toNat = g % 16) ∧ (sel = 1 → idx.toNat = a / 16) ∧
        (sel = 2 → idx.toNat = a % 16) ∧ (sel = 3 → idx.toNat = b % 16) ∧
        exec (.pixel col row) s = .next { s with
          rspValid := true, rspErr := false,
          rspWord := 0#2 ++ BitVec.ofNat 2 sel ++ idx ++ ((s.romRead idx).r ++ (s.romRead idx).g ++ (s.romRead idx).b),
          log := .response false
            (0#2 ++ BitVec.ofNat 2 sel ++ idx ++ ((s.romRead idx).r ++ (s.romRead idx).g ++ (s.romRead idx).b))
              :: s.log }) ∧
    (s.bgPolicy = .fault → sel = 0 → 16 ≤ g → exec (.pixel col row) s = .fault .bgHighNibble)) ∧
  (∀ (col row : Byte) (s : State), 160 ≤ col.toNat ∨ 200 ≤ row.toNat → exec (.pixel col row) s = .next { s with
    rspValid := true, rspErr := true, rspWord := 0, errRange := true, log := .response true 0 :: s.log })

/-- RUN (R141), for both flags and every state: its words; EXP, DONE, phase and counters; no response, every other field
unchanged. -/
def Obligations.RunResult : Prop :=
  (∀ w : Word, w &&& 0xFFFFFFFE = 0x60000000 → decode w = .ok (.run (w.getLsbD 0))) ∧
  (∀ w : Word, w.extractLsb' 28 4 = 6 → w.extractLsb' 1 27 ≠ 0 → RaisesErrOp w) ∧
  (∀ (e : Bool) (s : State), exec (.run e) s = .next { s with
    expand := e, done := false, phase := .hdr, hdrI := 0, row := 0, col := 0, dup := false, chan := .r,
    rspValid := false }) ∧
  (∀ (e : Bool) (s t : State), exec (.run e) s = .next t → t.busy = true ∧ t.status.getLsbD 0 = true)

/-- The frame of the responding operations (R91, R109, R122, R125, R129): LOOKUP, ADDR, SEL, RESOLVE and PIXEL change only
the response port, the response registers, the log and, where the coordinate is outside the grid, ERR_RANGE; no byte of
IMG changes. -/
def Obligations.RespondingFrame : Prop :=
  ∀ (i : Instr) (s t : State), (∀ e, i ≠ .run e) → exec i s = .next t →
    t.phase = s.phase ∧ t.hdrI = s.hdrI ∧ t.row = s.row ∧ t.col = s.col ∧ t.dup = s.dup ∧ t.chan = s.chan ∧
    t.expand = s.expand ∧ t.done = s.done ∧ t.errOp = s.errOp ∧
    (t.errRange = (s.errRange || match i with
      | .addr c r | .pixel c r => decide (160 ≤ c.toNat) || decide (200 ≤ r.toNat)
      | .lookup _ | .sel _ _ | .resolve _ _ _ _ | .run _ => false)) ∧
    t.pixRgb = s.pixRgb ∧ t.rom = s.rom ∧ t.bgPolicy = s.bgPolicy ∧ (∀ a, t.img.read a = s.img.read a) ∧
    t.rst = s.rst ∧ t.cmdValid = s.cmdValid ∧ t.cmdWord = s.cmdWord ∧ t.outReady = s.outReady ∧
    t.script = s.script ∧ t.rspValid = true ∧ t.log = .response t.rspErr t.rspWord :: s.log

/-- The frame of RUN (R141): the response registers, the error bits, the hidden latch, the ROM, the ports and every byte of
IMG are unchanged. -/
def Obligations.RunFrame : Prop :=
  ∀ (e : Bool) (s t : State), exec (.run e) s = .next t →
    t.rspWord = s.rspWord ∧ t.rspErr = s.rspErr ∧ t.errOp = s.errOp ∧ t.errRange = s.errRange ∧
    t.pixRgb = s.pixRgb ∧ t.rom = s.rom ∧ t.bgPolicy = s.bgPolicy ∧ (∀ a, t.img.read a = s.img.read a) ∧
    t.rst = s.rst ∧ t.cmdValid = s.cmdValid ∧ t.cmdWord = s.cmdWord ∧ t.outReady = s.outReady ∧
    t.script = s.script ∧ t.log = s.log

/-- R130 in terms of the unit operations: SEL, RESOLVE and LOOKUP, fed with the bytes of R128 and each other's answers,
give what PIXEL gives (95_test_vectors.md, program 2). -/
def Obligations.UnitOperationsComposeToPixel : Prop :=
  ∀ (s : State) (col row : Byte) (c : Col) (r : Row), gridPos col row = some (c, r) →
    ∀ tp, exec (.pixel col row) s = .next tp →
    ∃ ts tr tl, exec (.sel (s.img.read (2 + (bmOff c r).toNat)) (pairIndex c)) s = .next ts ∧
      exec (.resolve (ts.rspWord.extractLsb' 0 2) (s.img.read (8002 + (attrOff c r).toNat))
        (s.img.read (9002 + (attrOff c r).toNat)) (s.img.read 10002)) s = .next tr ∧
      exec (.lookup (tr.rspWord.extractLsb' 0 4)) s = .next tl ∧
      tp.rspWord.toNat = ts.rspWord.toNat * 2 ^ 28 + tr.rspWord.toNat * 2 ^ 24 + tl.rspWord.toNat

/-! ## Errors -/

/-- R172: a word that no row selects raises ERR_OP; the four examples of the rule do. -/
def Obligations.IllegalWordRaisesErrOp : Prop :=
  (∀ s m : State, hostMove s = .next m → m.Accepts → (∀ r ∈ opTable, m.cmdWord &&& r.mask ≠ r.matchBits) →
    ∃ t, step s = .next t ∧ t.errOp = true ∧ t.rspErr = true ∧ t.rspValid = true ∧ t.rspWord = 0) ∧
  (∀ w ∈ ([0x00000000, 0x70000000, 0x10000010, 0x60000002] : List Word),
    ∀ r ∈ opTable, w &&& r.mask ≠ r.matchBits)

/-- R173 and R174: a legal ADDR or PIXEL outside the grid raises ERR_RANGE once and leaves ERR_OP; an illegal word leaves
ERR_RANGE; a legal word leaves ERR_OP. -/
def Obligations.OneErrorPerCommand : Prop :=
  ∀ s m t : State, hostMove s = .next m → m.Accepts → step s = .next t →
    (∀ e, decode m.cmdWord = .error e → t.errOp = true ∧ t.errRange = m.errRange) ∧
    (∀ i, decode m.cmdWord = .ok i → t.errOp = m.errOp) ∧
    (∀ c r, (decode m.cmdWord = .ok (.addr c r) ∨ decode m.cmdWord = .ok (.pixel c r)) →
      160 ≤ c.toNat ∨ 200 ≤ r.toNat →
      t = { m with cmdValid := false, rspValid := true, rspErr := true, rspWord := 0, errRange := true,
                   log := .response true 0 :: m.log })

/-- R31 and R32: the two error bits are bits 2 and 3 of STATUS and stay 1 until reset, under every step. -/
def Obligations.ErrorBitsAreSticky : Prop :=
  ∀ s m t : State, hostMove s = .next m → step s = .next t →
    (s.errOp = true → t.errOp = true ∨ m.rst = true) ∧ (s.errRange = true → t.errRange = true ∨ m.rst = true) ∧
    (m.rst = true → t.errOp = false ∧ t.errRange = false) ∧
    t.status.getLsbD 2 = t.errOp ∧ t.status.getLsbD 3 = t.errRange

/-- R175: BG_HIGH_NIBBLE is the only fault, and it needs the policy FAULT; under the default MASK no step faults. -/
def Obligations.OnlyBgHighNibbleFaults : Prop :=
  (∀ (s : State) (f : Fault), step s = .fault f → f = .bgHighNibble ∧ s.bgPolicy = .fault) ∧
  (∀ (s t : State), step s = .next t → t.bgPolicy = s.bgPolicy)

/-- The model's choice (notes/assumptions/15.md, after U3): the only refusal is a host write to IMG while BUSY or with a
command in flight, and then the step always refuses. -/
def Obligations.OnlyImageWriteInFlightRefused : Prop :=
  ∀ (s : State) (r : Refusal), step s = .refused r ↔
    r = .imgWriteInFlight ∧ (∃ a v rest, s.script = .writeImg a v :: rest) ∧ (s.phase ≠ .idle ∨ s.cmdValid = true)

/-! ## The step -/

/-- A step runs the decoded operation (R70, R85): after the host's move, an accepted word that decodes to `i` makes the
step `exec i` of the accepting state. The model's own, not the spec's: that the host acts first and by a list of moves (an
offer drives the port, no move left changes nothing) is notes/assumptions/1.md, DESIGN CHOICE, and that the command is then
off the port is notes/assumptions/3.md, DEDUCED. -/
def Obligations.StepRunsDecodedOperation : Prop :=
  (∀ (s m : State) (i : Instr), hostMove s = .next m → m.Accepts → decode m.cmdWord = .ok i →
    step s = exec i m.accepted) ∧
  (∀ (s : State) (w : Word) (rest : List HostMove), s.script = .offer w :: rest → s.cmdValid = false →
    hostMove s = .next { s with script := rest, cmdValid := true, cmdWord := w }) ∧
  (∀ s : State, s.script = [] → hostMove s = .next s)

/-- A placed word runs in the very next step, in every state (notes/assumptions/2.md): the model's own way of placing a
program's word. -/
def Obligations.PlacedWordRunsNext : Prop :=
  ∀ (s : State) (w : Word) (i : Instr), decode w = .ok i →
    step (s.withFetchWord 32 w.toNat) =
      exec i { s with phase := .idle, hdrI := 0, row := 0, col := 0, dup := false, chan := .r,
                      rst := false, cmdValid := false, cmdWord := w, rspValid := false }

/-- R70 and R202: while BUSY no command is accepted and no response is made; an offered command stays on the port with its
word unchanged, and a further offer of the host waits behind it. -/
def Obligations.CommandIsHeldWhileBusy : Prop :=
  (∀ s m t : State, hostMove s = .next m → m.phase ≠ .idle → m.rst = false → step s = .next t →
    t.cmdValid = m.cmdValid ∧ t.cmdWord = m.cmdWord ∧ t.script = m.script ∧ t.rspValid = false ∧
    t.rspWord = m.rspWord ∧ t.rspErr = m.rspErr ∧ m.cmdReady = false) ∧
  (∀ (s m : State) (w : Word) (rest : List HostMove), s.cmdValid = true → s.script = .offer w :: rest →
    hostMove s = .next m → m = s)

/-- R71, R35, R185 and R201: an accepted command other than RUN makes exactly one response in the step that accepts it,
kept in the response registers; an accepted RUN makes none. In a step that accepts no command there is no response, and an
IDLE step that accepts none and is no reset changes nothing but the response strobe: the last response and the error bits
stay. -/
def Obligations.OneResponsePerCommand : Prop :=
  (∀ s m t : State, hostMove s = .next m → step s = .next t →
    (m.Accepts → (∀ e, decode m.cmdWord ≠ .ok (.run e)) →
      t.rspValid = true ∧ t.log = .response t.rspErr t.rspWord :: s.log) ∧
    (m.Accepts → (∃ e, decode m.cmdWord = .ok (.run e)) →
      t.rspValid = false ∧ t.log = s.log ∧ t.rspWord = s.rspWord ∧ t.rspErr = s.rspErr) ∧
    (¬m.Accepts → t.rspValid = false ∧ ∀ err w, .response err w ∈ t.log → .response err w ∈ s.log)) ∧
  (∀ s m : State, hostMove s = .next m → ¬m.Accepts → m.rst = false → m.phase = .idle →
    step s = .next { m with rspValid := false } ∧ m.rspWord = s.rspWord ∧ m.rspErr = s.rspErr ∧
    m.errOp = s.errOp ∧ m.errRange = s.errRange ∧ m.log = s.log)

/-- R150: `out_valid` is 1 exactly when a stream is in progress and reset is off; a byte is transferred exactly when
`out_ready` is 1 too; while it is 0 the emitter holds its byte and its state. -/
def Obligations.EmitterHoldsUntilReady : Prop :=
  (∀ s : State, s.rst = false → (s.outValid = true ↔ s.phase ≠ .idle)) ∧
  (∀ s m : State, hostMove s = .next m → m.phase ≠ .idle → m.rst = false → m.outReady = false →
    step s = .next { m with rspValid := false }) ∧
  (∀ s m t : State, hostMove s = .next m → m.Transfers → step s = .next t →
    ∃ b, m.outData = some b ∧ t.log = .byte b m.outLast :: m.log) ∧
  (∀ s m t : State, hostMove s = .next m → ¬m.Transfers → step s = .next t →
    ∀ b l, .byte b l ∈ t.log → .byte b l ∈ m.log)

/-- Each transferred byte is the stream's byte at the emitter's position, and the position advances by one or the stream
ends (R24, R148, R151, R153). -/
def Obligations.EachByteIsTheStreamsNext : Prop :=
  ∀ (s m : State) (px : Grid) (k : Nat), hostMove s = .next m → m.Transfers → m.Inv → m.Decodes px →
    m.position = some k →
    ∃ t, step s = .next t ∧
      (∃ b, (stream px m.expand)[k]? = some b ∧ t.log = .byte b (k + 1 == streamLength m.expand) :: m.log) ∧
      ((k + 1 < streamLength m.expand ∧ t.position = some (k + 1) ∧ t.done = false) ∨
        (k + 1 = streamLength m.expand ∧ t.phase = .idle ∧ t.done = true ∧ t.hdrI = 0 ∧ t.row = 0 ∧ t.col = 0 ∧
          t.dup = false ∧ t.chan = .r)) ∧
      t.expand = m.expand ∧ t.errOp = m.errOp ∧ t.errRange = m.errRange ∧ t.rom = m.rom ∧
      (∀ a, t.img.read a = m.img.read a)

/-- R152: `out_last` marks exactly the last pixel's last channel of the last copy, which is byte 96,037 or 192,037 of the
stream. -/
def Obligations.OutLastMarksTheLastByte : Prop :=
  (∀ s : State, s.outLast = true ↔ s.phase = .pix ∧ s.row.val = 199 ∧ s.col.val = 159 ∧ s.chan = .b ∧
    (s.expand = false ∨ s.dup = true)) ∧
  (∀ s : State, s.Inv → (s.outLast = true ↔ s.position = some (if s.expand then 192037 else 96037)))

/-- R153: the step that transfers the byte with `out_last` ends the run, with BUSY off, DONE on, the command port ready and
all counters 0; no other step sets DONE. -/
def Obligations.RunEndsWithLastByte : Prop :=
  (∀ s m t : State, hostMove s = .next m → m.Inv → m.Transfers → m.outLast = true → step s = .next t →
    t.busy = false ∧ t.cmdReady = true ∧ t.done = true ∧ t.hdrI = 0 ∧ t.row = 0 ∧ t.col = 0 ∧ t.dup = false ∧
    t.chan = .r) ∧
  (∀ s m t : State, hostMove s = .next m → step s = .next t → s.done = false → t.done = true →
    m.Transfers ∧ m.outLast = true)

/-- R30: DONE rises in the step that takes the last byte, falls in the step that accepts a RUN and at reset, and no other
step changes it. -/
def Obligations.DoneChangesOnlyByRunAndReset : Prop :=
  ∀ s m t : State, hostMove s = .next m → step s = .next t →
    (m.rst = true → t.done = false) ∧
    (m.Accepts → (∃ e, decode m.cmdWord = .ok (.run e)) → t.done = false) ∧
    (m.Transfers → m.outLast = true → t.done = true) ∧
    (m.rst = false → ¬(m.Accepts ∧ ∃ e, decode m.cmdWord = .ok (.run e)) → ¬(m.Transfers ∧ m.outLast = true) →
      t.done = s.done) ∧
    t.status.getLsbD 1 = t.done

/-- R33 and R199: EXP is written only by an accepted RUN, with its flag, and by reset. -/
def Obligations.ExpandSampledOnlyAtRun : Prop :=
  ∀ s m t : State, hostMove s = .next m → step s = .next t →
    (m.rst = true → t.expand = false) ∧
    (∀ e, m.Accepts → decode m.cmdWord = .ok (.run e) → t.expand = e) ∧
    (m.rst = false → ¬(m.Accepts ∧ ∃ e, decode m.cmdWord = .ok (.run e)) → t.expand = s.expand) ∧
    t.status.getLsbD 4 = t.expand

/-- R27, R57 and R193: no step changes the ROM; IMG changes only by the host's write of one byte, and every other byte
reads as before; the reset input changes neither. -/
def Obligations.RomFixedImageHostWritten : Prop :=
  ∀ s t : State, s.Inv → step s = .next t →
    t.rom = s.rom ∧
    ((∀ a v rest, s.script ≠ .writeImg a v :: rest) → t.img = s.img) ∧
    (∀ a v rest, s.script = .writeImg a v :: rest →
      t.img.read a.val = v ∧ ∀ b, b ≠ a.val → t.img.read b = s.img.read b)

/-- R53, R54 and R56: every address the block reads lies in 2..10002. -/
def Obligations.ReadsStayInsideThePlanes : Prop :=
  (∀ (c : Col) (r : Row), pixelAddrs c r =
    [2 + (bmOff c r).toNat, 8002 + (attrOff c r).toNat, 9002 + (attrOff c r).toNat, 10002] ∧
    2 + (bmOff c r).toNat ≤ 8001 ∧ 8002 + (attrOff c r).toNat ≤ 9001 ∧ 9002 + (attrOff c r).toNat ≤ 10001) ∧
  (∀ (s : State), ∀ a ∈ s.imgReads, 2 ≤ a ∧ a ≤ 10002)

/-- R53: IMG bytes 0 and 1 have no influence. Two states that differ only in them step alike: the same stop, or next
states that differ at most in them. -/
def Obligations.MarkerBytesHaveNoInfluence : Prop :=
  ∀ (s : State) (m' : Memory), s.img.wf = true → m'.wf = true →
    (∀ a, 2 ≤ a → s.img.read a = m'.read a) →
    (∀ t, step s = .next t → ∃ n', step { s with img := m' } = .next { t with img := n' } ∧
      ∀ a, 2 ≤ a → t.img.read a = n'.read a) ∧
    (∀ f, step s = .fault f → step { s with img := m' } = .fault f) ∧
    (∀ r, step s = .refused r → step { s with img := m' } = .refused r)

/-! ## Reset -/

/-- R38: the values after reset that the spec gives, the ports among them; reset leaves the ROM and IMG. -/
def Obligations.ResetValuesHold : Prop :=
  State.reset.phase = .idle ∧ State.reset.hdrI = 0 ∧ State.reset.row = 0 ∧ State.reset.col = 0 ∧
  State.reset.dup = false ∧ State.reset.chan = .r ∧ State.reset.expand = false ∧ State.reset.done = false ∧
  State.reset.errOp = false ∧ State.reset.errRange = false ∧ State.reset.status = 0b00000 ∧
  State.reset.rspWord = 0x00000000 ∧ State.reset.rspErr = false ∧ State.reset.rspValid = false ∧
  State.reset.outValid = false ∧ State.reset.outLast = false ∧ State.reset.cmdReady = true ∧
  (∀ i : BitVec 4, State.reset.romRead i = Config.palette i.toFin) ∧ Config.palette 0 = ⟨0x00, 0x00, 0x00⟩ ∧
  (∀ s : State, s.resetBlock.rom = s.rom ∧ ∀ a, s.resetBlock.img.read a = s.img.read a)

/-- R190, R192 and R193: with `rst = 1` a step puts the block in the reset state whatever it was doing, accepts no command,
presents no response and no byte, and leaves IMG, the ROM and what the host has taken. -/
def Obligations.ResetInputResetsTheBlock : Prop :=
  ∀ s m : State, hostMove s = .next m → m.rst = true → ∃ t, step s = .next t ∧
    t.phase = .idle ∧ t.hdrI = 0 ∧ t.row = 0 ∧ t.col = 0 ∧ t.dup = false ∧ t.chan = .r ∧ t.status = 0b00000 ∧
    t.rspWord = 0x00000000 ∧ t.rspErr = false ∧ t.rspValid = false ∧ t.outValid = false ∧ t.cmdReady = false ∧
    t.cmdValid = m.cmdValid ∧ t.cmdWord = m.cmdWord ∧ t.rom = m.rom ∧ t.bgPolicy = m.bgPolicy ∧
    (∀ a, t.img.read a = m.img.read a) ∧ t.log = m.log ∧
    ({ t with rst := false }.cmdReady = true ∧ { t with rst := false }.busy = false)

/-- The reset state meets the invariant. -/
def Obligations.ResetMeetsInvariant : Prop := State.reset.Inv

/-- Every step keeps the invariant: the counter invariants of R26, IMG in canonical form, ROM entry 0, the error records
and the hidden latch (its load time is the model's choice, notes/assumptions/9.md). -/
def Obligations.StepKeepsInvariant : Prop := ∀ s t : State, s.Inv → step s = .next t → t.Inv

/-- R28 and R29: the five STATUS bits, and `cmd_ready = NOT status[0]` while reset is off. -/
def Obligations.StatusBitsHold : Prop :=
  ∀ s : State, s.status.getLsbD 0 = (s.phase != .idle) ∧ s.status.getLsbD 1 = s.done ∧
    s.status.getLsbD 2 = s.errOp ∧ s.status.getLsbD 3 = s.errRange ∧ s.status.getLsbD 4 = s.expand ∧
    (s.rst = false → s.cmdReady = !s.status.getLsbD 0)

/-- R36: the hidden latch has no influence: two states that differ only in it step alike, and no output port shows it. -/
def Obligations.HiddenLatchHasNoInfluence : Prop :=
  ∀ (s : State) (v : Rgb),
    (∀ t, step s = .next t → ∃ v', step { s with pixRgb := v } = .next { t with pixRgb := v' }) ∧
    (∀ f, step s = .fault f → step { s with pixRgb := v } = .fault f) ∧
    (∀ r, step s = .refused r → step { s with pixRgb := v } = .refused r) ∧
    { s with pixRgb := v }.outData = s.outData ∧ { s with pixRgb := v }.outLast = s.outLast ∧
    { s with pixRgb := v }.outValid = s.outValid ∧ { s with pixRgb := v }.cmdReady = s.cmdReady ∧
    { s with pixRgb := v }.rspValid = s.rspValid ∧ { s with pixRgb := v }.rspErrPort = s.rspErrPort ∧
    { s with pixRgb := v }.rspWordPort = s.rspWordPort ∧
    { s with pixRgb := v }.status = s.status ∧ { s with pixRgb := v }.imgReads = s.imgReads

/-! ## The stream -/

/-- R146: the header's 38 bytes, which differ between the two flags in bytes 26 and 27 only. -/
def Obligations.HeaderBytesHold : Prop :=
  header false =
    [0x50, 0x36, 0x0A, 0x23, 0x20, 0x43, 0x72, 0x65, 0x61, 0x74, 0x65, 0x64, 0x20, 0x62, 0x79, 0x20, 0x6B, 0x6F, 0x61] ++
    [0x6C, 0x61, 0x32, 0x70, 0x70, 0x6D, 0x0A, 0x31, 0x36, 0x30, 0x20, 0x32, 0x30, 0x30, 0x20, 0x32, 0x35, 0x35, 0x0A] ∧
  (header false).length = 38 ∧ (header true).length = 38 ∧
  (header true)[26]? = some 0x33 ∧ (header true)[27]? = some 0x32 ∧
  (∀ i, i ≠ 26 → i ≠ 27 → (header true)[i]? = (header false)[i]?)

/-- R149: lengths of body and stream. -/
def Obligations.StreamLengthsHold : Prop :=
  ∀ px : Grid, (body px false).length = 96000 ∧ (body px true).length = 192000 ∧
    (stream px false).length = 96038 ∧ (stream px true).length = 192038

/-- R148: where each channel of each copy of each pixel stands in the stream. -/
def Obligations.BytePositionsHold : Prop :=
  ∀ (px : Grid) (c : Col) (r : Row) (ch : Chan),
    (stream px false)[38 + 3 * (r.val * 160 + c.val) + chanIndex ch]? = some (channel (px c r) ch) ∧
    ∀ dup : Bool, (stream px true)[38 + 3 * (r.val * 320 + (2 * c.val + dup.toNat)) + chanIndex ch]? =
      some (channel (px c r) ch)

/-- R155: the two copies of a pixel in the expanded stream are equal, and equal the pixel of the plain stream. -/
def Obligations.ExpansionDuplicatesPixels : Prop :=
  ∀ (px : Grid) (c : Col) (r : Row) (k : Nat), k < 3 →
    (stream px true)[38 + 3 * (r.val * 320 + 2 * c.val) + k]? =
      (stream px false)[38 + 3 * (r.val * 160 + c.val) + k]? ∧
    (stream px true)[38 + 3 * (r.val * 320 + (2 * c.val + 1)) + k]? =
      (stream px false)[38 + 3 * (r.val * 160 + c.val) + k]? ∧
    (stream px false)[38 + 3 * (r.val * 160 + c.val) + k]? ≠ none

/-- R154, for every host: from any state of a stream on, whatever the host does except reset, the bytes transferred are the
stream's from the emitter's position on, and either the stream is still in progress or it was completed on the way with
no other event in between. -/
def Obligations.StreamUnderAnyHost : Prop :=
  ∀ (n : Nat) (s t : State) (px : Grid) (k : Nat), s.Inv → s.Decodes px → s.position = some k →
    s.rst = false → noReset s.script → Runs n s t →
    (∃ k', k ≤ k' ∧ k' < streamLength s.expand ∧ t.position = some k' ∧
      t.log = (((streamEvents px s.expand).take k').drop k).reverse ++ s.log) ∨
    (∃ j u, j ≤ n ∧ Runs j s u ∧ u.phase = .idle ∧ u.done = true ∧
      u.log = ((streamEvents px s.expand).drop k).reverse ++ s.log)

/-- R154 and R196: a RUN accepted while IDLE, with a host that keeps `out_ready = 1`, transfers one byte a step: after the
accepting step and `k` more the first `k` bytes of the stream, and after the last of them the run has ended. -/
def Obligations.ReadyHostGetsTheWholeStream : Prop :=
  ∀ (s : State) (w : Word) (e : Bool) (px : Grid) (k : Nat),
    s.phase = .idle → s.rst = false → s.cmdValid = false → s.outReady = true → s.script = [.offer w] →
    decode w = .ok (.run e) → s.Decodes px → k ≤ streamLength e →
    ∃ t, Runs (1 + k) s t ∧ t.log = ((streamEvents px e).take k).reverse ++ s.log ∧
      t.expand = e ∧ t.rspWord = s.rspWord ∧ t.rspErr = s.rspErr ∧ t.img = s.img ∧
      (t.busy = true ↔ k < streamLength e) ∧ (t.done = true ↔ k = streamLength e)

/-- R192: reset in the middle of a stream ends it at once; what the host has taken is a prefix of the stream, and DONE is 0. -/
def Obligations.CutStreamIsAPrefix : Prop :=
  ∀ (s t u : State) (w : Word) (e : Bool) (px : Grid) (k : Nat),
    s.phase = .idle → s.rst = false → s.cmdValid = false → s.outReady = true → s.script = [.offer w] → s.log = [] →
    decode w = .ok (.run e) → s.Decodes px → k ≤ streamLength e → Runs (1 + k) s t →
    step { t with script := [.reset true] } = .next u →
    u.phase = .idle ∧ u.done = false ∧ u.log.reverse <+: streamEvents px e ∧ u.log.length = k

/-- R158: two runs with the same flag over images that read alike deliver the same bytes, however far they have come and
whatever the other registers hold. -/
def Obligations.SameImageSameStream : Prop :=
  ∀ (n : Nat) (s s' t t' : State) (w : Word) (e : Bool),
    s.phase = .idle → s.rst = false → s.cmdValid = false → s.outReady = true → s.script = [.offer w] → s.log = [] →
    s'.phase = .idle → s'.rst = false → s'.cmdValid = false → s'.outReady = true → s'.script = [.offer w] → s'.log = [] →
    decode w = .ok (.run e) → (∀ a, s.img.read a = s'.img.read a) → s.rom = s'.rom → s.bgPolicy = s'.bgPolicy →
    Runs n s t → Runs n s' t' → t.log = t'.log

/-- Under the default policy every IMG decodes to a grid, so a RUN always completes (R124, R175). -/
def Obligations.MaskDecodesEveryImage : Prop :=
  ∀ s : State, s.bgPolicy = .mask → ∃ px : Grid, s.Decodes px
end

