-- ==== Sys2Proof/Laws/Memory.lean ====
section
/-! SUPPORT. IMG: every memory operation keeps the canonical form, a read gives the last value written, and a write
leaves every other byte alone. -/

namespace Sys2Proof.Machine

theorem wfFrom_cons (lo k : Nat) (v : Byte) (m : Memory) :
    Memory.wfFrom lo ((k, v) :: m) = true ↔
      (lo ≤ k ∧ k < 10003 ∧ v ≠ Memory.unwritten) ∧ Memory.wfFrom (k + 1) m = true := by
  simp [Memory.wfFrom, and_assoc]

theorem wfFrom_mono {lo lo' : Nat} {m : Memory} (h : Memory.wfFrom lo m = true) (hl : lo' ≤ lo) :
    Memory.wfFrom lo' m = true := by
  cases m with
  | nil => rfl
  | cons e m =>
    obtain ⟨k, v⟩ := e
    rw [wfFrom_cons] at h ⊢
    exact ⟨⟨hl.trans h.1.1, h.1.2⟩, h.2⟩

/-- Below its first address a canonical memory reads as unwritten. -/
theorem read_of_lt {lo : Nat} {m : Memory} (h : Memory.wfFrom lo m = true) {a : Nat} (ha : a < lo) :
    m.read a = Memory.unwritten := by
  induction m generalizing lo with
  | nil => rfl
  | cons e m ih =>
    obtain ⟨k, v⟩ := e
    rw [wfFrom_cons] at h
    have hk : k ≠ a := by omega
    simpa [Memory.read, hk] using ih h.2 (by omega)

theorem wfFrom_write {lo : Nat} {m : Memory} (h : Memory.wfFrom lo m = true) {a : Nat} (hlo : lo ≤ a)
    (ha : a < 10003) (v : Byte) : Memory.wfFrom lo (m.write a v) = true := by
  induction m generalizing lo with
  | nil =>
    unfold Memory.write
    split
    · rfl
    · rename_i hv
      rw [wfFrom_cons]
      exact ⟨⟨hlo, ha, hv⟩, rfl⟩
  | cons e m ih =>
    obtain ⟨k, w⟩ := e
    have h' := h
    rw [wfFrom_cons] at h
    unfold Memory.write
    split_ifs with h1 hv h2 hv
    · exact h'
    · rw [wfFrom_cons, wfFrom_cons]
      exact ⟨⟨hlo, ha, hv⟩, ⟨⟨h1, h.1.2⟩, h.2⟩⟩
    · exact wfFrom_mono h.2 (by omega)
    · rw [wfFrom_cons]
      exact ⟨⟨hlo, ha, hv⟩, by subst h2; exact h.2⟩
    · rw [wfFrom_cons]
      exact ⟨h.1, ih h.2 (by omega)⟩

/-- A write to an address of IMG keeps the canonical form. -/
theorem wf_write {m : Memory} (h : m.wf = true) {a : Nat} (ha : a < 10003) (v : Byte) :
    (m.write a v).wf = true :=
  wfFrom_write h (Nat.zero_le a) ha v

theorem read_write_from {lo : Nat} {m : Memory} (h : Memory.wfFrom lo m = true) (a : Nat) (v : Byte) (b : Nat) :
    (m.write a v).read b = if b = a then v else m.read b := by
  induction m generalizing lo with
  | nil =>
    by_cases hv : v = Memory.unwritten <;> by_cases hb : b = a
    · simp [Memory.write, Memory.read, hv]
    · simp [Memory.write, Memory.read, hv]
    · simp [Memory.write, Memory.read, hv, hb]
    · simp [Memory.write, Memory.read, hv, hb, Ne.symm hb]
  | cons e m ih =>
    obtain ⟨k, w⟩ := e
    rw [wfFrom_cons] at h
    have hhead : Memory.wfFrom k ((k, w) :: m) = true := (wfFrom_cons k k w m).2 ⟨⟨le_rfl, h.1.2⟩, h.2⟩
    unfold Memory.write
    rcases lt_trichotomy a k with hlt | heq | hgt
    · rw [if_pos hlt]
      by_cases hv : v = Memory.unwritten
      · rw [if_pos hv]
        split_ifs with hb
        · rw [hb, hv, read_of_lt hhead hlt]
        · rfl
      · rw [if_neg hv]
        simp only [Memory.read, eq_comm (a := a)]
    · subst heq
      rw [if_neg (lt_irrefl a), if_pos rfl]
      by_cases hv : v = Memory.unwritten
      · rw [if_pos hv]
        split_ifs with hb
        · rw [hb, hv, read_of_lt h.2 (Nat.lt_succ_self a)]
        · rw [Memory.read, if_neg (Ne.symm hb)]
      · rw [if_neg hv]
        split_ifs with hb
        · rw [Memory.read, if_pos hb.symm]
        · rw [Memory.read, Memory.read, if_neg (Ne.symm hb), if_neg (Ne.symm hb)]
    · rw [if_neg (by omega), if_neg (by omega)]
      by_cases hk : k = b
      · rw [Memory.read, if_pos hk, Memory.read, if_pos hk, if_neg (by omega)]
      · rw [Memory.read, if_neg hk, Memory.read, if_neg hk, ih h.2]

/-- `MemRead` after `MemWrite`: the value written there, the old byte elsewhere. -/
theorem read_write {m : Memory} (h : m.wf = true) (a : Nat) (v : Byte) (b : Nat) :
    (m.write a v).read b = if b = a then v else m.read b :=
  read_write_from h a v b

/-- Equal reads make equal canonical memories: the form is canonical. -/
theorem wfFrom_ext {lo : Nat} {m n : Memory} (hm : Memory.wfFrom lo m = true) (hn : Memory.wfFrom lo n = true)
    (h : ∀ a, m.read a = n.read a) : m = n := by
  induction m generalizing lo n with
  | nil =>
    cases n with
    | nil => rfl
    | cons e n =>
      obtain ⟨k, v⟩ := e
      rw [wfFrom_cons] at hn
      have := h k
      simp only [Memory.read, if_pos] at this
      exact absurd this.symm hn.1.2.2
  | cons e m ih =>
    obtain ⟨k, v⟩ := e
    rw [wfFrom_cons] at hm
    cases n with
    | nil =>
      have := h k
      simp only [Memory.read, if_pos] at this
      exact absurd this hm.1.2.2
    | cons e' n =>
      obtain ⟨k', v'⟩ := e'
      rw [wfFrom_cons] at hn
      have hkk : k = k' := by
        rcases lt_trichotomy k k' with hlt | heq | hgt
        · have := h k
          rw [Memory.read, if_pos rfl, Memory.read, if_neg (by omega), read_of_lt hn.2 (by omega)] at this
          exact absurd this hm.1.2.2
        · exact heq
        · have := h k'
          rw [Memory.read, if_neg (by omega), read_of_lt hm.2 (by omega), Memory.read, if_pos rfl] at this
          exact absurd this.symm hn.1.2.2
      subst hkk
      have hv : v = v' := by simpa [Memory.read] using h k
      subst hv
      rw [ih hm.2 hn.2 fun a => ?_]
      by_cases ha : k = a
      · subst ha
        rw [read_of_lt hm.2 (by omega), read_of_lt hn.2 (by omega)]
      · simpa [Memory.read, ha] using h a

/-- Memories in canonical form that read alike everywhere are the same data. -/
theorem wf_ext {m n : Memory} (hm : m.wf = true) (hn : n.wf = true) (h : ∀ a, m.read a = n.read a) : m = n :=
  wfFrom_ext hm hn h

end Sys2Proof.Machine
end

