-- ==== Sys2Proof/Laws/Operands.lean ====
section
/-! SUPPORT. What the operand forms can answer: the range check, the colour resolution, the pixel function. -/

namespace Sys2Proof.Machine

/-- Inside the grid the range check answers the position. -/
theorem gridPos_of_inRange {col row : Byte} (hc : col.toNat ≤ 159) (hr : row.toNat ≤ 199) :
    gridPos col row = some (⟨col.toNat, Nat.lt_succ_of_le hc⟩, ⟨row.toNat, Nat.lt_succ_of_le hr⟩) := by
  simp [gridPos, hc, hr]

/-- The range check answers a position exactly inside the grid, and that position. -/
theorem gridPos_eq_some {col row : Byte} {c : Col} {r : Row} :
    gridPos col row = some (c, r) ↔ col.toNat = c.val ∧ row.toNat = r.val := by
  unfold gridPos
  constructor
  · intro h
    split at h
    · simp only [Option.some.injEq, Prod.mk.injEq] at h
      exact ⟨by rw [← h.1], by rw [← h.2]⟩
    · exact absurd h (by simp)
  · rintro ⟨hc, hr⟩
    have h1 := c.isLt
    have h2 := r.isLt
    rw [dif_pos ⟨by omega, by omega⟩]
    simp [hc, hr]

/-- The range check answers none exactly outside the grid. -/
theorem gridPos_eq_none {col row : Byte} : gridPos col row = none ↔ 160 ≤ col.toNat ∨ 200 ≤ row.toNat := by
  unfold gridPos
  split
  · simp only [reduceCtorEq, false_iff]
    omega
  · simp only [true_iff]
    omega

/-- `bg_index` answers none only under FAULT, on a byte whose high nibble is not 0. -/
theorem bgIndex_eq_none {p : BgPolicy} {g : Byte} : bgIndex p g = none ↔ p = .fault ∧ highNibble g ≠ 0 := by
  cases p <;> simp [bgIndex]

/-- Where `bg_index` answers, it answers the low nibble. -/
theorem bgIndex_eq_some {p : BgPolicy} {g : Byte} {i : BitVec 4} (h : bgIndex p g = some i) : i = lowNibble g := by
  cases p
  · simpa [bgIndex] using h.symm
  · simp only [bgIndex] at h
    split at h
    · simpa using h.symm
    · exact absurd h (by simp)

/-- A selector is one of four. -/
theorem selector_cases (sel : BitVec 2) : sel = 0#2 ∨ sel = 1#2 ∨ sel = 2#2 ∨ sel = 3#2 := by
  revert sel
  decide

@[simp] theorem resolve_zero (p : BgPolicy) (a b g : Byte) : resolve p 0#2 a b g = bgIndex p g := rfl
@[simp] theorem resolve_one (p : BgPolicy) (a b g : Byte) : resolve p 1#2 a b g = some (highNibble a) := rfl
@[simp] theorem resolve_two (p : BgPolicy) (a b g : Byte) : resolve p 2#2 a b g = some (lowNibble a) := rfl
@[simp] theorem resolve_three (p : BgPolicy) (a b g : Byte) : resolve p 3#2 a b g = some (lowNibble b) := rfl

/-- `resolve` answers none exactly where BG_HIGH_NIBBLE is taken. -/
theorem resolve_eq_none {p : BgPolicy} {sel : BitVec 2} {a b g : Byte} :
    resolve p sel a b g = none ↔ p = .fault ∧ sel = 0#2 ∧ highNibble g ≠ 0 := by
  rcases selector_cases sel with rfl | rfl | rfl | rfl
  · simp [bgIndex_eq_none]
  · simp
  · simp
  · simp

/-- The pixel function answers exactly where the index does, with the pixel's selector and the index's triple. -/
theorem pixel_eq_some {s : State} {col : Col} {row : Row} {p : PixelOut} :
    s.pixel col row = some p ↔
      s.pixelIdx col row = some p.idx ∧ p.sel = s.pixelSel col row ∧ p.rgb = s.romRead p.idx := by
  unfold State.pixel
  cases h : s.pixelIdx col row with
  | none => simp
  | some i =>
    simp only [Option.some.injEq]
    constructor
    · rintro rfl
      exact ⟨rfl, rfl, rfl⟩
    · rintro ⟨rfl, h2, h3⟩
      cases p
      simp_all

/-- The triple of a pixel is the ROM entry of its index. -/
theorem pixelRgb_eq_some {s : State} {col : Col} {row : Row} {t : Rgb} :
    s.pixelRgb col row = some t ↔ ∃ i, s.pixelIdx col row = some i ∧ t = s.romRead i := by
  unfold State.pixelRgb State.pixel
  cases h : s.pixelIdx col row with
  | none => simp
  | some i => simp [eq_comm]

/-- The pixel function reads IMG, the ROM and the parameter, and nothing else of the state. -/
theorem pixelRgb_congr {s t : State} (hi : t.img = s.img) (hr : t.rom = s.rom) (hp : t.bgPolicy = s.bgPolicy)
    (col : Col) (row : Row) : t.pixelRgb col row = s.pixelRgb col row := by
  simp only [State.pixelRgb, State.pixel, State.pixelIdx, State.pixelSel, State.romRead, hi, hr, hp]

end Sys2Proof.Machine
end

