-- ==== Sys2Proof/Laws/PerInstr.lean ====
section
/-! SUPPORT. Statements about every operation as syntax, one lemma per constructor of Instr. -/

namespace Sys2Proof.Laws.SelectsOwnRow

/-- The encoding of an operation selects the operation's own row of the op code map (30_encoding.md rule R73). -/
def Statement (i : Instr) : Prop := encode i &&& i.opRow.mask = i.opRow.matchBits

theorem lookup (idx : BitVec 4) : Statement (.lookup idx) := by
  show (0b0001#4 ++ 0#24 ++ idx : Word) &&& (0xFFFFFFF#28 ++ 0#4) = 0x1000000#28 ++ 0#4
  simp only [BitVec.and_append, BitVec.and_zero]
  rfl

theorem addr (col row : Byte) : Statement (.addr col row) := by
  show (0b0010#4 ++ 0#12 ++ row ++ col : Word) &&& (0xFFFF#16 ++ 0#8 ++ 0#8) = 0x2000#16 ++ 0#8 ++ 0#8
  simp only [BitVec.and_append, BitVec.and_zero]
  rfl

theorem sel (byte : Byte) (pair : BitVec 2) : Statement (.sel byte pair) := by
  show (0b0011#4 ++ 0#18 ++ pair ++ byte : Word) &&& (0x3FFFFF#22 ++ 0#2 ++ 0#8) = 0xC0000#22 ++ 0#2 ++ 0#8
  simp only [BitVec.and_append, BitVec.and_zero]
  rfl

theorem resolve (sel : BitVec 2) (attrA attrB bg : Byte) : Statement (.resolve sel attrA attrB bg) := by
  show (0b0100#4 ++ 0#2 ++ sel ++ attrB ++ attrA ++ bg : Word) &&& (0x3F#6 ++ 0#2 ++ 0#8 ++ 0#8 ++ 0#8) =
    0x10#6 ++ 0#2 ++ 0#8 ++ 0#8 ++ 0#8
  simp only [BitVec.and_append, BitVec.and_zero]
  rfl

theorem pixel (col row : Byte) : Statement (.pixel col row) := by
  show (0b0101#4 ++ 0#12 ++ row ++ col : Word) &&& (0xFFFF#16 ++ 0#8 ++ 0#8) = 0x5000#16 ++ 0#8 ++ 0#8
  simp only [BitVec.and_append, BitVec.and_zero]
  rfl

theorem run (e : Bool) : Statement (.run e) := by cases e <;> rfl

end Sys2Proof.Laws.SelectsOwnRow
end

