-- ==== Sys2Proof/Laws/State.lean ====
section
/-! SUPPORT. For each named update of State, what every field reads after it: one lemma per field, so that no later
proof unfolds a record update. -/

namespace Sys2Proof.Machine

/-! ## noResponse -/

@[simp] theorem noResponse_phase (s : State) : (s.noResponse).phase = s.phase := rfl
@[simp] theorem noResponse_hdrI (s : State) : (s.noResponse).hdrI = s.hdrI := rfl
@[simp] theorem noResponse_row (s : State) : (s.noResponse).row = s.row := rfl
@[simp] theorem noResponse_col (s : State) : (s.noResponse).col = s.col := rfl
@[simp] theorem noResponse_dup (s : State) : (s.noResponse).dup = s.dup := rfl
@[simp] theorem noResponse_chan (s : State) : (s.noResponse).chan = s.chan := rfl
@[simp] theorem noResponse_expand (s : State) : (s.noResponse).expand = s.expand := rfl
@[simp] theorem noResponse_done (s : State) : (s.noResponse).done = s.done := rfl
@[simp] theorem noResponse_errOp (s : State) : (s.noResponse).errOp = s.errOp := rfl
@[simp] theorem noResponse_errRange (s : State) : (s.noResponse).errRange = s.errRange := rfl
@[simp] theorem noResponse_rspWord (s : State) : (s.noResponse).rspWord = s.rspWord := rfl
@[simp] theorem noResponse_rspErr (s : State) : (s.noResponse).rspErr = s.rspErr := rfl
@[simp] theorem noResponse_pixRgb (s : State) : (s.noResponse).pixRgb = s.pixRgb := rfl
@[simp] theorem noResponse_rom (s : State) : (s.noResponse).rom = s.rom := rfl
@[simp] theorem noResponse_bgPolicy (s : State) : (s.noResponse).bgPolicy = s.bgPolicy := rfl
@[simp] theorem noResponse_img (s : State) : (s.noResponse).img = s.img := rfl
@[simp] theorem noResponse_rst (s : State) : (s.noResponse).rst = s.rst := rfl
@[simp] theorem noResponse_cmdValid (s : State) : (s.noResponse).cmdValid = s.cmdValid := rfl
@[simp] theorem noResponse_cmdWord (s : State) : (s.noResponse).cmdWord = s.cmdWord := rfl
@[simp] theorem noResponse_outReady (s : State) : (s.noResponse).outReady = s.outReady := rfl
@[simp] theorem noResponse_rspValid (s : State) : (s.noResponse).rspValid = false := rfl
@[simp] theorem noResponse_script (s : State) : (s.noResponse).script = s.script := rfl
@[simp] theorem noResponse_log (s : State) : (s.noResponse).log = s.log := rfl

/-! ## respond -/

@[simp] theorem respond_phase (s : State) (w : Word) : (s.respond w).phase = s.phase := rfl
@[simp] theorem respond_hdrI (s : State) (w : Word) : (s.respond w).hdrI = s.hdrI := rfl
@[simp] theorem respond_row (s : State) (w : Word) : (s.respond w).row = s.row := rfl
@[simp] theorem respond_col (s : State) (w : Word) : (s.respond w).col = s.col := rfl
@[simp] theorem respond_dup (s : State) (w : Word) : (s.respond w).dup = s.dup := rfl
@[simp] theorem respond_chan (s : State) (w : Word) : (s.respond w).chan = s.chan := rfl
@[simp] theorem respond_expand (s : State) (w : Word) : (s.respond w).expand = s.expand := rfl
@[simp] theorem respond_done (s : State) (w : Word) : (s.respond w).done = s.done := rfl
@[simp] theorem respond_errOp (s : State) (w : Word) : (s.respond w).errOp = s.errOp := rfl
@[simp] theorem respond_errRange (s : State) (w : Word) : (s.respond w).errRange = s.errRange := rfl
@[simp] theorem respond_rspWord (s : State) (w : Word) : (s.respond w).rspWord = w := rfl
@[simp] theorem respond_rspErr (s : State) (w : Word) : (s.respond w).rspErr = false := rfl
@[simp] theorem respond_pixRgb (s : State) (w : Word) : (s.respond w).pixRgb = s.pixRgb := rfl
@[simp] theorem respond_rom (s : State) (w : Word) : (s.respond w).rom = s.rom := rfl
@[simp] theorem respond_bgPolicy (s : State) (w : Word) : (s.respond w).bgPolicy = s.bgPolicy := rfl
@[simp] theorem respond_img (s : State) (w : Word) : (s.respond w).img = s.img := rfl
@[simp] theorem respond_rst (s : State) (w : Word) : (s.respond w).rst = s.rst := rfl
@[simp] theorem respond_cmdValid (s : State) (w : Word) : (s.respond w).cmdValid = s.cmdValid := rfl
@[simp] theorem respond_cmdWord (s : State) (w : Word) : (s.respond w).cmdWord = s.cmdWord := rfl
@[simp] theorem respond_outReady (s : State) (w : Word) : (s.respond w).outReady = s.outReady := rfl
@[simp] theorem respond_rspValid (s : State) (w : Word) : (s.respond w).rspValid = true := rfl
@[simp] theorem respond_script (s : State) (w : Word) : (s.respond w).script = s.script := rfl
@[simp] theorem respond_log (s : State) (w : Word) : (s.respond w).log = .response false w :: s.log := rfl

/-! ## setSticky -/

@[simp] theorem setSticky_phase (s : State) (k : ErrKind) : (s.setSticky k).phase = s.phase := by cases k <;> rfl
@[simp] theorem setSticky_hdrI (s : State) (k : ErrKind) : (s.setSticky k).hdrI = s.hdrI := by cases k <;> rfl
@[simp] theorem setSticky_row (s : State) (k : ErrKind) : (s.setSticky k).row = s.row := by cases k <;> rfl
@[simp] theorem setSticky_col (s : State) (k : ErrKind) : (s.setSticky k).col = s.col := by cases k <;> rfl
@[simp] theorem setSticky_dup (s : State) (k : ErrKind) : (s.setSticky k).dup = s.dup := by cases k <;> rfl
@[simp] theorem setSticky_chan (s : State) (k : ErrKind) : (s.setSticky k).chan = s.chan := by cases k <;> rfl
@[simp] theorem setSticky_expand (s : State) (k : ErrKind) : (s.setSticky k).expand = s.expand := by cases k <;> rfl
@[simp] theorem setSticky_done (s : State) (k : ErrKind) : (s.setSticky k).done = s.done := by cases k <;> rfl
@[simp] theorem setSticky_errOp (s : State) (k : ErrKind) : (s.setSticky k).errOp = (s.errOp || k == .op) := by cases k <;> simp [State.setSticky]
@[simp] theorem setSticky_errRange (s : State) (k : ErrKind) : (s.setSticky k).errRange = (s.errRange || k == .range) := by cases k <;> simp [State.setSticky]
@[simp] theorem setSticky_rspWord (s : State) (k : ErrKind) : (s.setSticky k).rspWord = s.rspWord := by cases k <;> rfl
@[simp] theorem setSticky_rspErr (s : State) (k : ErrKind) : (s.setSticky k).rspErr = s.rspErr := by cases k <;> rfl
@[simp] theorem setSticky_pixRgb (s : State) (k : ErrKind) : (s.setSticky k).pixRgb = s.pixRgb := by cases k <;> rfl
@[simp] theorem setSticky_rom (s : State) (k : ErrKind) : (s.setSticky k).rom = s.rom := by cases k <;> rfl
@[simp] theorem setSticky_bgPolicy (s : State) (k : ErrKind) : (s.setSticky k).bgPolicy = s.bgPolicy := by cases k <;> rfl
@[simp] theorem setSticky_img (s : State) (k : ErrKind) : (s.setSticky k).img = s.img := by cases k <;> rfl
@[simp] theorem setSticky_rst (s : State) (k : ErrKind) : (s.setSticky k).rst = s.rst := by cases k <;> rfl
@[simp] theorem setSticky_cmdValid (s : State) (k : ErrKind) : (s.setSticky k).cmdValid = s.cmdValid := by cases k <;> rfl
@[simp] theorem setSticky_cmdWord (s : State) (k : ErrKind) : (s.setSticky k).cmdWord = s.cmdWord := by cases k <;> rfl
@[simp] theorem setSticky_outReady (s : State) (k : ErrKind) : (s.setSticky k).outReady = s.outReady := by cases k <;> rfl
@[simp] theorem setSticky_rspValid (s : State) (k : ErrKind) : (s.setSticky k).rspValid = s.rspValid := by cases k <;> rfl
@[simp] theorem setSticky_script (s : State) (k : ErrKind) : (s.setSticky k).script = s.script := by cases k <;> rfl
@[simp] theorem setSticky_log (s : State) (k : ErrKind) : (s.setSticky k).log = s.log := by cases k <;> rfl

/-! ## raiseErr -/

@[simp] theorem raiseErr_phase (s : State) (k : ErrKind) : (s.raiseErr k).phase = s.phase := setSticky_phase s k
@[simp] theorem raiseErr_hdrI (s : State) (k : ErrKind) : (s.raiseErr k).hdrI = s.hdrI := setSticky_hdrI s k
@[simp] theorem raiseErr_row (s : State) (k : ErrKind) : (s.raiseErr k).row = s.row := setSticky_row s k
@[simp] theorem raiseErr_col (s : State) (k : ErrKind) : (s.raiseErr k).col = s.col := setSticky_col s k
@[simp] theorem raiseErr_dup (s : State) (k : ErrKind) : (s.raiseErr k).dup = s.dup := setSticky_dup s k
@[simp] theorem raiseErr_chan (s : State) (k : ErrKind) : (s.raiseErr k).chan = s.chan := setSticky_chan s k
@[simp] theorem raiseErr_expand (s : State) (k : ErrKind) : (s.raiseErr k).expand = s.expand := setSticky_expand s k
@[simp] theorem raiseErr_done (s : State) (k : ErrKind) : (s.raiseErr k).done = s.done := setSticky_done s k
@[simp] theorem raiseErr_errOp (s : State) (k : ErrKind) : (s.raiseErr k).errOp = (s.errOp || k == .op) := setSticky_errOp s k
@[simp] theorem raiseErr_errRange (s : State) (k : ErrKind) : (s.raiseErr k).errRange = (s.errRange || k == .range) := setSticky_errRange s k
@[simp] theorem raiseErr_rspWord (s : State) (k : ErrKind) : (s.raiseErr k).rspWord = 0 := rfl
@[simp] theorem raiseErr_rspErr (s : State) (k : ErrKind) : (s.raiseErr k).rspErr = true := rfl
@[simp] theorem raiseErr_pixRgb (s : State) (k : ErrKind) : (s.raiseErr k).pixRgb = s.pixRgb := setSticky_pixRgb s k
@[simp] theorem raiseErr_rom (s : State) (k : ErrKind) : (s.raiseErr k).rom = s.rom := setSticky_rom s k
@[simp] theorem raiseErr_bgPolicy (s : State) (k : ErrKind) : (s.raiseErr k).bgPolicy = s.bgPolicy := setSticky_bgPolicy s k
@[simp] theorem raiseErr_img (s : State) (k : ErrKind) : (s.raiseErr k).img = s.img := setSticky_img s k
@[simp] theorem raiseErr_rst (s : State) (k : ErrKind) : (s.raiseErr k).rst = s.rst := setSticky_rst s k
@[simp] theorem raiseErr_cmdValid (s : State) (k : ErrKind) : (s.raiseErr k).cmdValid = s.cmdValid := setSticky_cmdValid s k
@[simp] theorem raiseErr_cmdWord (s : State) (k : ErrKind) : (s.raiseErr k).cmdWord = s.cmdWord := setSticky_cmdWord s k
@[simp] theorem raiseErr_outReady (s : State) (k : ErrKind) : (s.raiseErr k).outReady = s.outReady := setSticky_outReady s k
@[simp] theorem raiseErr_rspValid (s : State) (k : ErrKind) : (s.raiseErr k).rspValid = true := rfl
@[simp] theorem raiseErr_script (s : State) (k : ErrKind) : (s.raiseErr k).script = s.script := setSticky_script s k
@[simp] theorem raiseErr_log (s : State) (k : ErrKind) : (s.raiseErr k).log = .response true 0 :: s.log := rfl

/-! ## startAt -/

@[simp] theorem startAt_phase (s : State) (ph : Phase) : (s.startAt ph).phase = ph := rfl
@[simp] theorem startAt_hdrI (s : State) (ph : Phase) : (s.startAt ph).hdrI = 0 := rfl
@[simp] theorem startAt_row (s : State) (ph : Phase) : (s.startAt ph).row = 0 := rfl
@[simp] theorem startAt_col (s : State) (ph : Phase) : (s.startAt ph).col = 0 := rfl
@[simp] theorem startAt_dup (s : State) (ph : Phase) : (s.startAt ph).dup = false := rfl
@[simp] theorem startAt_chan (s : State) (ph : Phase) : (s.startAt ph).chan = .r := rfl
@[simp] theorem startAt_expand (s : State) (ph : Phase) : (s.startAt ph).expand = s.expand := rfl
@[simp] theorem startAt_done (s : State) (ph : Phase) : (s.startAt ph).done = s.done := rfl
@[simp] theorem startAt_errOp (s : State) (ph : Phase) : (s.startAt ph).errOp = s.errOp := rfl
@[simp] theorem startAt_errRange (s : State) (ph : Phase) : (s.startAt ph).errRange = s.errRange := rfl
@[simp] theorem startAt_rspWord (s : State) (ph : Phase) : (s.startAt ph).rspWord = s.rspWord := rfl
@[simp] theorem startAt_rspErr (s : State) (ph : Phase) : (s.startAt ph).rspErr = s.rspErr := rfl
@[simp] theorem startAt_pixRgb (s : State) (ph : Phase) : (s.startAt ph).pixRgb = s.pixRgb := rfl
@[simp] theorem startAt_rom (s : State) (ph : Phase) : (s.startAt ph).rom = s.rom := rfl
@[simp] theorem startAt_bgPolicy (s : State) (ph : Phase) : (s.startAt ph).bgPolicy = s.bgPolicy := rfl
@[simp] theorem startAt_img (s : State) (ph : Phase) : (s.startAt ph).img = s.img := rfl
@[simp] theorem startAt_rst (s : State) (ph : Phase) : (s.startAt ph).rst = s.rst := rfl
@[simp] theorem startAt_cmdValid (s : State) (ph : Phase) : (s.startAt ph).cmdValid = s.cmdValid := rfl
@[simp] theorem startAt_cmdWord (s : State) (ph : Phase) : (s.startAt ph).cmdWord = s.cmdWord := rfl
@[simp] theorem startAt_outReady (s : State) (ph : Phase) : (s.startAt ph).outReady = s.outReady := rfl
@[simp] theorem startAt_rspValid (s : State) (ph : Phase) : (s.startAt ph).rspValid = s.rspValid := rfl
@[simp] theorem startAt_script (s : State) (ph : Phase) : (s.startAt ph).script = s.script := rfl
@[simp] theorem startAt_log (s : State) (ph : Phase) : (s.startAt ph).log = s.log := rfl

/-! ## resetBlock -/

@[simp] theorem resetBlock_phase (s : State) : (s.resetBlock).phase = .idle := rfl
@[simp] theorem resetBlock_hdrI (s : State) : (s.resetBlock).hdrI = 0 := rfl
@[simp] theorem resetBlock_row (s : State) : (s.resetBlock).row = 0 := rfl
@[simp] theorem resetBlock_col (s : State) : (s.resetBlock).col = 0 := rfl
@[simp] theorem resetBlock_dup (s : State) : (s.resetBlock).dup = false := rfl
@[simp] theorem resetBlock_chan (s : State) : (s.resetBlock).chan = .r := rfl
@[simp] theorem resetBlock_expand (s : State) : (s.resetBlock).expand = false := rfl
@[simp] theorem resetBlock_done (s : State) : (s.resetBlock).done = false := rfl
@[simp] theorem resetBlock_errOp (s : State) : (s.resetBlock).errOp = false := rfl
@[simp] theorem resetBlock_errRange (s : State) : (s.resetBlock).errRange = false := rfl
@[simp] theorem resetBlock_rspWord (s : State) : (s.resetBlock).rspWord = 0 := rfl
@[simp] theorem resetBlock_rspErr (s : State) : (s.resetBlock).rspErr = false := rfl
@[simp] theorem resetBlock_pixRgb (s : State) : (s.resetBlock).pixRgb = Rgb.black := rfl
@[simp] theorem resetBlock_rom (s : State) : (s.resetBlock).rom = s.rom := rfl
@[simp] theorem resetBlock_bgPolicy (s : State) : (s.resetBlock).bgPolicy = s.bgPolicy := rfl
@[simp] theorem resetBlock_img (s : State) : (s.resetBlock).img = s.img := rfl
@[simp] theorem resetBlock_rst (s : State) : (s.resetBlock).rst = s.rst := rfl
@[simp] theorem resetBlock_cmdValid (s : State) : (s.resetBlock).cmdValid = s.cmdValid := rfl
@[simp] theorem resetBlock_cmdWord (s : State) : (s.resetBlock).cmdWord = s.cmdWord := rfl
@[simp] theorem resetBlock_outReady (s : State) : (s.resetBlock).outReady = s.outReady := rfl
@[simp] theorem resetBlock_rspValid (s : State) : (s.resetBlock).rspValid = false := rfl
@[simp] theorem resetBlock_script (s : State) : (s.resetBlock).script = s.script := rfl
@[simp] theorem resetBlock_log (s : State) : (s.resetBlock).log = s.log := rfl

/-! ## transfer -/

@[simp] theorem transfer_phase (s : State) (b : Byte) (l : Bool) : (s.transfer b l).phase = s.phase := rfl
@[simp] theorem transfer_hdrI (s : State) (b : Byte) (l : Bool) : (s.transfer b l).hdrI = s.hdrI := rfl
@[simp] theorem transfer_row (s : State) (b : Byte) (l : Bool) : (s.transfer b l).row = s.row := rfl
@[simp] theorem transfer_col (s : State) (b : Byte) (l : Bool) : (s.transfer b l).col = s.col := rfl
@[simp] theorem transfer_dup (s : State) (b : Byte) (l : Bool) : (s.transfer b l).dup = s.dup := rfl
@[simp] theorem transfer_chan (s : State) (b : Byte) (l : Bool) : (s.transfer b l).chan = s.chan := rfl
@[simp] theorem transfer_expand (s : State) (b : Byte) (l : Bool) : (s.transfer b l).expand = s.expand := rfl
@[simp] theorem transfer_done (s : State) (b : Byte) (l : Bool) : (s.transfer b l).done = s.done := rfl
@[simp] theorem transfer_errOp (s : State) (b : Byte) (l : Bool) : (s.transfer b l).errOp = s.errOp := rfl
@[simp] theorem transfer_errRange (s : State) (b : Byte) (l : Bool) : (s.transfer b l).errRange = s.errRange := rfl
@[simp] theorem transfer_rspWord (s : State) (b : Byte) (l : Bool) : (s.transfer b l).rspWord = s.rspWord := rfl
@[simp] theorem transfer_rspErr (s : State) (b : Byte) (l : Bool) : (s.transfer b l).rspErr = s.rspErr := rfl
@[simp] theorem transfer_pixRgb (s : State) (b : Byte) (l : Bool) : (s.transfer b l).pixRgb = s.pixRgb := rfl
@[simp] theorem transfer_rom (s : State) (b : Byte) (l : Bool) : (s.transfer b l).rom = s.rom := rfl
@[simp] theorem transfer_bgPolicy (s : State) (b : Byte) (l : Bool) : (s.transfer b l).bgPolicy = s.bgPolicy := rfl
@[simp] theorem transfer_img (s : State) (b : Byte) (l : Bool) : (s.transfer b l).img = s.img := rfl
@[simp] theorem transfer_rst (s : State) (b : Byte) (l : Bool) : (s.transfer b l).rst = s.rst := rfl
@[simp] theorem transfer_cmdValid (s : State) (b : Byte) (l : Bool) : (s.transfer b l).cmdValid = s.cmdValid := rfl
@[simp] theorem transfer_cmdWord (s : State) (b : Byte) (l : Bool) : (s.transfer b l).cmdWord = s.cmdWord := rfl
@[simp] theorem transfer_outReady (s : State) (b : Byte) (l : Bool) : (s.transfer b l).outReady = s.outReady := rfl
@[simp] theorem transfer_rspValid (s : State) (b : Byte) (l : Bool) : (s.transfer b l).rspValid = s.rspValid := rfl
@[simp] theorem transfer_script (s : State) (b : Byte) (l : Bool) : (s.transfer b l).script = s.script := rfl
@[simp] theorem transfer_log (s : State) (b : Byte) (l : Bool) : (s.transfer b l).log = .byte b l :: s.log := rfl

/-! ## takeCommand -/

@[simp] theorem takeCommand_phase (s : State) : (s.takeCommand).phase = s.phase := rfl
@[simp] theorem takeCommand_hdrI (s : State) : (s.takeCommand).hdrI = s.hdrI := rfl
@[simp] theorem takeCommand_row (s : State) : (s.takeCommand).row = s.row := rfl
@[simp] theorem takeCommand_col (s : State) : (s.takeCommand).col = s.col := rfl
@[simp] theorem takeCommand_dup (s : State) : (s.takeCommand).dup = s.dup := rfl
@[simp] theorem takeCommand_chan (s : State) : (s.takeCommand).chan = s.chan := rfl
@[simp] theorem takeCommand_expand (s : State) : (s.takeCommand).expand = s.expand := rfl
@[simp] theorem takeCommand_done (s : State) : (s.takeCommand).done = s.done := rfl
@[simp] theorem takeCommand_errOp (s : State) : (s.takeCommand).errOp = s.errOp := rfl
@[simp] theorem takeCommand_errRange (s : State) : (s.takeCommand).errRange = s.errRange := rfl
@[simp] theorem takeCommand_rspWord (s : State) : (s.takeCommand).rspWord = s.rspWord := rfl
@[simp] theorem takeCommand_rspErr (s : State) : (s.takeCommand).rspErr = s.rspErr := rfl
@[simp] theorem takeCommand_pixRgb (s : State) : (s.takeCommand).pixRgb = s.pixRgb := rfl
@[simp] theorem takeCommand_rom (s : State) : (s.takeCommand).rom = s.rom := rfl
@[simp] theorem takeCommand_bgPolicy (s : State) : (s.takeCommand).bgPolicy = s.bgPolicy := rfl
@[simp] theorem takeCommand_img (s : State) : (s.takeCommand).img = s.img := rfl
@[simp] theorem takeCommand_rst (s : State) : (s.takeCommand).rst = s.rst := rfl
@[simp] theorem takeCommand_cmdValid (s : State) : (s.takeCommand).cmdValid = false := rfl
@[simp] theorem takeCommand_cmdWord (s : State) : (s.takeCommand).cmdWord = s.cmdWord := rfl
@[simp] theorem takeCommand_outReady (s : State) : (s.takeCommand).outReady = s.outReady := rfl
@[simp] theorem takeCommand_rspValid (s : State) : (s.takeCommand).rspValid = s.rspValid := rfl
@[simp] theorem takeCommand_script (s : State) : (s.takeCommand).script = s.script := rfl
@[simp] theorem takeCommand_log (s : State) : (s.takeCommand).log = s.log := rfl

/-! ## withCommand -/

@[simp] theorem withCommand_phase (s : State) (w : Word) : (s.withCommand w).phase = .idle := rfl
@[simp] theorem withCommand_hdrI (s : State) (w : Word) : (s.withCommand w).hdrI = 0 := rfl
@[simp] theorem withCommand_row (s : State) (w : Word) : (s.withCommand w).row = 0 := rfl
@[simp] theorem withCommand_col (s : State) (w : Word) : (s.withCommand w).col = 0 := rfl
@[simp] theorem withCommand_dup (s : State) (w : Word) : (s.withCommand w).dup = false := rfl
@[simp] theorem withCommand_chan (s : State) (w : Word) : (s.withCommand w).chan = .r := rfl
@[simp] theorem withCommand_expand (s : State) (w : Word) : (s.withCommand w).expand = s.expand := rfl
@[simp] theorem withCommand_done (s : State) (w : Word) : (s.withCommand w).done = s.done := rfl
@[simp] theorem withCommand_errOp (s : State) (w : Word) : (s.withCommand w).errOp = s.errOp := rfl
@[simp] theorem withCommand_errRange (s : State) (w : Word) : (s.withCommand w).errRange = s.errRange := rfl
@[simp] theorem withCommand_rspWord (s : State) (w : Word) : (s.withCommand w).rspWord = s.rspWord := rfl
@[simp] theorem withCommand_rspErr (s : State) (w : Word) : (s.withCommand w).rspErr = s.rspErr := rfl
@[simp] theorem withCommand_pixRgb (s : State) (w : Word) : (s.withCommand w).pixRgb = s.pixRgb := rfl
@[simp] theorem withCommand_rom (s : State) (w : Word) : (s.withCommand w).rom = s.rom := rfl
@[simp] theorem withCommand_bgPolicy (s : State) (w : Word) : (s.withCommand w).bgPolicy = s.bgPolicy := rfl
@[simp] theorem withCommand_img (s : State) (w : Word) : (s.withCommand w).img = s.img := rfl
@[simp] theorem withCommand_rst (s : State) (w : Word) : (s.withCommand w).rst = false := rfl
@[simp] theorem withCommand_cmdValid (s : State) (w : Word) : (s.withCommand w).cmdValid = false := rfl
@[simp] theorem withCommand_cmdWord (s : State) (w : Word) : (s.withCommand w).cmdWord = s.cmdWord := rfl
@[simp] theorem withCommand_outReady (s : State) (w : Word) : (s.withCommand w).outReady = s.outReady := rfl
@[simp] theorem withCommand_rspValid (s : State) (w : Word) : (s.withCommand w).rspValid = s.rspValid := rfl
@[simp] theorem withCommand_script (s : State) (w : Word) : (s.withCommand w).script = .offer w :: s.script := rfl
@[simp] theorem withCommand_log (s : State) (w : Word) : (s.withCommand w).log = s.log := rfl

/-! ## nextPixel -/

@[simp] theorem nextPixel_hdrI (s : State) : (s.nextPixel).hdrI = s.hdrI := by unfold State.nextPixel; split_ifs <;> rfl
@[simp] theorem nextPixel_expand (s : State) : (s.nextPixel).expand = s.expand := by unfold State.nextPixel; split_ifs <;> rfl
@[simp] theorem nextPixel_errOp (s : State) : (s.nextPixel).errOp = s.errOp := by unfold State.nextPixel; split_ifs <;> rfl
@[simp] theorem nextPixel_errRange (s : State) : (s.nextPixel).errRange = s.errRange := by unfold State.nextPixel; split_ifs <;> rfl
@[simp] theorem nextPixel_rspWord (s : State) : (s.nextPixel).rspWord = s.rspWord := by unfold State.nextPixel; split_ifs <;> rfl
@[simp] theorem nextPixel_rspErr (s : State) : (s.nextPixel).rspErr = s.rspErr := by unfold State.nextPixel; split_ifs <;> rfl
@[simp] theorem nextPixel_pixRgb (s : State) : (s.nextPixel).pixRgb = s.pixRgb := by unfold State.nextPixel; split_ifs <;> rfl
@[simp] theorem nextPixel_rom (s : State) : (s.nextPixel).rom = s.rom := by unfold State.nextPixel; split_ifs <;> rfl
@[simp] theorem nextPixel_bgPolicy (s : State) : (s.nextPixel).bgPolicy = s.bgPolicy := by unfold State.nextPixel; split_ifs <;> rfl
@[simp] theorem nextPixel_img (s : State) : (s.nextPixel).img = s.img := by unfold State.nextPixel; split_ifs <;> rfl
@[simp] theorem nextPixel_rst (s : State) : (s.nextPixel).rst = s.rst := by unfold State.nextPixel; split_ifs <;> rfl
@[simp] theorem nextPixel_cmdValid (s : State) : (s.nextPixel).cmdValid = s.cmdValid := by unfold State.nextPixel; split_ifs <;> rfl
@[simp] theorem nextPixel_cmdWord (s : State) : (s.nextPixel).cmdWord = s.cmdWord := by unfold State.nextPixel; split_ifs <;> rfl
@[simp] theorem nextPixel_outReady (s : State) : (s.nextPixel).outReady = s.outReady := by unfold State.nextPixel; split_ifs <;> rfl
@[simp] theorem nextPixel_rspValid (s : State) : (s.nextPixel).rspValid = s.rspValid := by unfold State.nextPixel; split_ifs <;> rfl
@[simp] theorem nextPixel_script (s : State) : (s.nextPixel).script = s.script := by unfold State.nextPixel; split_ifs <;> rfl
@[simp] theorem nextPixel_log (s : State) : (s.nextPixel).log = s.log := by unfold State.nextPixel; split_ifs <;> rfl

/-! ## advance -/

@[simp] theorem advance_expand (s : State) : (s.advance).expand = s.expand := by unfold State.advance; split <;> (try split) <;> simp
@[simp] theorem advance_errOp (s : State) : (s.advance).errOp = s.errOp := by unfold State.advance; split <;> (try split) <;> simp
@[simp] theorem advance_errRange (s : State) : (s.advance).errRange = s.errRange := by unfold State.advance; split <;> (try split) <;> simp
@[simp] theorem advance_rspWord (s : State) : (s.advance).rspWord = s.rspWord := by unfold State.advance; split <;> (try split) <;> simp
@[simp] theorem advance_rspErr (s : State) : (s.advance).rspErr = s.rspErr := by unfold State.advance; split <;> (try split) <;> simp
@[simp] theorem advance_pixRgb (s : State) : (s.advance).pixRgb = s.pixRgb := by unfold State.advance; split <;> (try split) <;> simp
@[simp] theorem advance_rom (s : State) : (s.advance).rom = s.rom := by unfold State.advance; split <;> (try split) <;> simp
@[simp] theorem advance_bgPolicy (s : State) : (s.advance).bgPolicy = s.bgPolicy := by unfold State.advance; split <;> (try split) <;> simp
@[simp] theorem advance_img (s : State) : (s.advance).img = s.img := by unfold State.advance; split <;> (try split) <;> simp
@[simp] theorem advance_rst (s : State) : (s.advance).rst = s.rst := by unfold State.advance; split <;> (try split) <;> simp
@[simp] theorem advance_cmdValid (s : State) : (s.advance).cmdValid = s.cmdValid := by unfold State.advance; split <;> (try split) <;> simp
@[simp] theorem advance_cmdWord (s : State) : (s.advance).cmdWord = s.cmdWord := by unfold State.advance; split <;> (try split) <;> simp
@[simp] theorem advance_outReady (s : State) : (s.advance).outReady = s.outReady := by unfold State.advance; split <;> (try split) <;> simp
@[simp] theorem advance_rspValid (s : State) : (s.advance).rspValid = s.rspValid := by unfold State.advance; split <;> (try split) <;> simp
@[simp] theorem advance_script (s : State) : (s.advance).script = s.script := by unfold State.advance; split <;> (try split) <;> simp
@[simp] theorem advance_log (s : State) : (s.advance).log = s.log := by unfold State.advance; split <;> (try split) <;> simp

/-! ## loadLatch -/

@[simp] theorem loadLatch_phase (s : State) : (s.loadLatch).phase = s.phase := by unfold State.loadLatch; split <;> (try split) <;> rfl
@[simp] theorem loadLatch_hdrI (s : State) : (s.loadLatch).hdrI = s.hdrI := by unfold State.loadLatch; split <;> (try split) <;> rfl
@[simp] theorem loadLatch_row (s : State) : (s.loadLatch).row = s.row := by unfold State.loadLatch; split <;> (try split) <;> rfl
@[simp] theorem loadLatch_col (s : State) : (s.loadLatch).col = s.col := by unfold State.loadLatch; split <;> (try split) <;> rfl
@[simp] theorem loadLatch_dup (s : State) : (s.loadLatch).dup = s.dup := by unfold State.loadLatch; split <;> (try split) <;> rfl
@[simp] theorem loadLatch_chan (s : State) : (s.loadLatch).chan = s.chan := by unfold State.loadLatch; split <;> (try split) <;> rfl
@[simp] theorem loadLatch_expand (s : State) : (s.loadLatch).expand = s.expand := by unfold State.loadLatch; split <;> (try split) <;> rfl
@[simp] theorem loadLatch_done (s : State) : (s.loadLatch).done = s.done := by unfold State.loadLatch; split <;> (try split) <;> rfl
@[simp] theorem loadLatch_errOp (s : State) : (s.loadLatch).errOp = s.errOp := by unfold State.loadLatch; split <;> (try split) <;> rfl
@[simp] theorem loadLatch_errRange (s : State) : (s.loadLatch).errRange = s.errRange := by unfold State.loadLatch; split <;> (try split) <;> rfl
@[simp] theorem loadLatch_rspWord (s : State) : (s.loadLatch).rspWord = s.rspWord := by unfold State.loadLatch; split <;> (try split) <;> rfl
@[simp] theorem loadLatch_rspErr (s : State) : (s.loadLatch).rspErr = s.rspErr := by unfold State.loadLatch; split <;> (try split) <;> rfl
@[simp] theorem loadLatch_rom (s : State) : (s.loadLatch).rom = s.rom := by unfold State.loadLatch; split <;> (try split) <;> rfl
@[simp] theorem loadLatch_bgPolicy (s : State) : (s.loadLatch).bgPolicy = s.bgPolicy := by unfold State.loadLatch; split <;> (try split) <;> rfl
@[simp] theorem loadLatch_img (s : State) : (s.loadLatch).img = s.img := by unfold State.loadLatch; split <;> (try split) <;> rfl
@[simp] theorem loadLatch_rst (s : State) : (s.loadLatch).rst = s.rst := by unfold State.loadLatch; split <;> (try split) <;> rfl
@[simp] theorem loadLatch_cmdValid (s : State) : (s.loadLatch).cmdValid = s.cmdValid := by unfold State.loadLatch; split <;> (try split) <;> rfl
@[simp] theorem loadLatch_cmdWord (s : State) : (s.loadLatch).cmdWord = s.cmdWord := by unfold State.loadLatch; split <;> (try split) <;> rfl
@[simp] theorem loadLatch_outReady (s : State) : (s.loadLatch).outReady = s.outReady := by unfold State.loadLatch; split <;> (try split) <;> rfl
@[simp] theorem loadLatch_rspValid (s : State) : (s.loadLatch).rspValid = s.rspValid := by unfold State.loadLatch; split <;> (try split) <;> rfl
@[simp] theorem loadLatch_script (s : State) : (s.loadLatch).script = s.script := by unfold State.loadLatch; split <;> (try split) <;> rfl
@[simp] theorem loadLatch_log (s : State) : (s.loadLatch).log = s.log := by unfold State.loadLatch; split <;> (try split) <;> rfl

end Sys2Proof.Machine
end

