-- ==== Sys2Proof/Laws/Step.lean ====
section
/-! SUPPORT. What each shared operation of the step can do, said once: inversion lemmas that later proofs cite instead
of unfolding. -/

namespace Sys2Proof.Machine

/-- The host's move: no move left, or one of the five, with an offer waiting behind an earlier one and a write only
while nothing is in flight. -/
theorem hostMove_next {s t : State} (h : hostMove s = .next t) :
    (s.script = [] ∧ t = s) ∨
    (∃ rest, s.script = .wait :: rest ∧ t = { s with script := rest }) ∨
    (∃ w rest, s.script = .offer w :: rest ∧ s.cmdValid = true ∧ t = s) ∨
    (∃ w rest, s.script = .offer w :: rest ∧ s.cmdValid = false ∧
      t = { s with script := rest, cmdValid := true, cmdWord := w }) ∨
    (∃ v rest, s.script = .ready v :: rest ∧ t = { s with script := rest, outReady := v }) ∨
    (∃ v rest, s.script = .reset v :: rest ∧ t = { s with script := rest, rst := v }) ∨
    (∃ a v rest, s.script = .writeImg a v :: rest ∧ s.inFlight = false ∧
      t = { s with script := rest, img := s.img.write a.val v }) := by
  unfold hostMove at h
  split at h
  · rename_i hs
    exact .inl ⟨hs, by injection h with h; exact h.symm⟩
  · rename_i rest hs
    exact .inr (.inl ⟨rest, hs, by injection h with h; exact h.symm⟩)
  · rename_i w rest hs
    split at h
    · rename_i hv
      exact .inr (.inr (.inl ⟨w, rest, hs, hv, by injection h with h; exact h.symm⟩))
    · rename_i hv
      exact .inr (.inr (.inr (.inl ⟨w, rest, hs, by simpa using hv, by injection h with h; exact h.symm⟩)))
  · rename_i v rest hs
    exact .inr (.inr (.inr (.inr (.inl ⟨v, rest, hs, by injection h with h; exact h.symm⟩))))
  · rename_i v rest hs
    exact .inr (.inr (.inr (.inr (.inr (.inl ⟨v, rest, hs, by injection h with h; exact h.symm⟩)))))
  · rename_i a v rest hs
    split at h
    · exact absurd h (by simp)
    · rename_i hf
      exact .inr (.inr (.inr (.inr (.inr (.inr
        ⟨a, v, rest, hs, by simpa using hf, by injection h with h; exact h.symm⟩)))))

/-- Every host move leaves the block's registers, the ROM, the parameter and the log as they are. -/
theorem hostMove_frame {s t : State} (h : hostMove s = .next t) :
    t.phase = s.phase ∧ t.hdrI = s.hdrI ∧ t.row = s.row ∧ t.col = s.col ∧ t.dup = s.dup ∧ t.chan = s.chan ∧
    t.expand = s.expand ∧ t.done = s.done ∧ t.errOp = s.errOp ∧ t.errRange = s.errRange ∧
    t.rspWord = s.rspWord ∧ t.rspErr = s.rspErr ∧ t.pixRgb = s.pixRgb ∧ t.rom = s.rom ∧
    t.bgPolicy = s.bgPolicy ∧ t.rspValid = s.rspValid ∧ t.log = s.log := by
  rcases hostMove_next h with ⟨-, rfl⟩ | ⟨_, -, rfl⟩ | ⟨_, _, -, -, rfl⟩ | ⟨_, _, -, -, rfl⟩ | ⟨_, _, -, rfl⟩ |
    ⟨_, _, -, rfl⟩ | ⟨_, _, _, -, -, rfl⟩ <;> simp

/-- The emitter's step: a byte is transferred, the position advances, the latch is loaded. -/
theorem emitStep_next {s t : State} (h : emitStep s = .next t) :
    ∃ b, s.streamByte = some b ∧ t = (s.transfer b s.outLast).advance.loadLatch := by
  unfold emitStep at h
  cases hb : s.streamByte with
  | none => rw [hb] at h; exact absurd h (by simp)
  | some b => rw [hb] at h; exact ⟨b, rfl, by injection h with h; exact h.symm⟩

/-- The emitter's step where a byte is presented. -/
theorem emitStep_of_byte {s : State} {b : Byte} (h : s.streamByte = some b) :
    emitStep s = .next ((s.transfer b s.outLast).advance.loadLatch) := by
  unfold emitStep
  rw [h]

/-- The four ways on from the last channel of a copy of a pixel. -/
theorem nextPixel_cases (s : State) :
    (s.expand = true ∧ s.dup = false ∧ s.nextPixel = { s with chan := .r, dup := true }) ∨
    (¬(s.expand = true ∧ s.dup = false) ∧ ∃ hc : s.col.val < 159,
      s.nextPixel = { s with chan := .r, dup := false, col := ⟨s.col.val + 1, Nat.succ_lt_succ hc⟩ }) ∨
    (¬(s.expand = true ∧ s.dup = false) ∧ s.col.val = 159 ∧ ∃ hr : s.row.val < 199,
      s.nextPixel =
        { s with chan := .r, dup := false, col := 0, row := ⟨s.row.val + 1, Nat.succ_lt_succ hr⟩ }) ∨
    (¬(s.expand = true ∧ s.dup = false) ∧ s.col.val = 159 ∧ s.row.val = 199 ∧
      s.nextPixel = { s with chan := .r, dup := false, col := 0, row := 0, phase := .idle, done := true }) := by
  have h1 : s.col.val < 160 := s.col.isLt
  have h2 : s.row.val < 200 := s.row.isLt
  unfold State.nextPixel
  split_ifs with he hc hr
  · exact .inl ⟨he.1, he.2, rfl⟩
  · exact .inr (.inl ⟨he, hc, rfl⟩)
  · exact .inr (.inr (.inl ⟨he, by omega, hr, rfl⟩))
  · exact .inr (.inr (.inr ⟨he, by omega, by omega, rfl⟩))

/-- One step of the block that goes on: reset, a wait, an illegal word, a legal command, or a stream byte. -/
theorem blockStep_next {s t : State} (h : blockStep s = .next t) :
    (s.rst = true ∧ t = s.resetBlock) ∨
    (s.rst = false ∧ s.phase = .idle ∧ s.cmdValid = false ∧ t = s.noResponse) ∨
    (s.rst = false ∧ s.phase ≠ .idle ∧ s.outReady = false ∧ t = s.noResponse) ∨
    (s.rst = false ∧ s.phase = .idle ∧ s.cmdValid = true ∧
      ∃ e, decode s.cmdWord = .error e ∧ t = s.noResponse.takeCommand.raiseErr .op) ∨
    (s.rst = false ∧ s.phase = .idle ∧ s.cmdValid = true ∧
      ∃ i, decode s.cmdWord = .ok i ∧ exec i s.noResponse.takeCommand = .next t) ∨
    (s.rst = false ∧ s.phase ≠ .idle ∧ s.outReady = true ∧ emitStep s.noResponse = .next t) := by
  unfold blockStep at h
  split at h
  · rename_i hr
    exact .inl ⟨hr, by injection h with h; exact h.symm⟩
  · rename_i hr
    have hr : s.rst = false := by simpa using hr
    split at h
    · rename_i hp
      split at h
      · rename_i hv
        unfold acceptCommand at h
        rw [noResponse_cmdWord] at h
        cases hd : decode s.cmdWord with
        | error e =>
          rw [hd] at h
          exact .inr (.inr (.inr (.inl ⟨hr, hp, hv, e, rfl, by injection h with h; exact h.symm⟩)))
        | ok i =>
          rw [hd] at h
          exact .inr (.inr (.inr (.inr (.inl ⟨hr, hp, hv, i, rfl, h⟩))))
      · rename_i hv
        exact .inr (.inl ⟨hr, hp, by simpa using hv, by injection h with h; exact h.symm⟩)
    all_goals
      rename_i hp
      have hp : s.phase ≠ .idle := by simp [hp]
      split at h
      · rename_i ho
        exact .inr (.inr (.inr (.inr (.inr ⟨hr, hp, ho, h⟩))))
      · rename_i ho
        exact .inr (.inr (.inl ⟨hr, hp, by simpa using ho, by injection h with h; exact h.symm⟩))

/-- A step that goes on is a host move and a step of the block that go on. -/
theorem step_next {s t : State} (h : step s = .next t) : ∃ m, hostMove s = .next m ∧ blockStep m = .next t := by
  unfold step hostThenBlock at h
  cases hm : hostMove s with
  | next m => rw [hm] at h; exact ⟨m, rfl, h⟩
  | fault f => rw [hm] at h; exact absurd h (by simp)
  | refused r => rw [hm] at h; exact absurd h (by simp)

/-- After a host move that goes on, the step is the block's. -/
theorem step_of_hostMove {s m : State} (h : hostMove s = .next m) : step s = blockStep m := by
  unfold step hostThenBlock
  rw [h]

/-- What an operation that goes on leaves of the state: RUN starts a stream, every other operation responds or raises
ERR_RANGE. -/
theorem exec_next {i : Instr} {s t : State} (h : exec i s = .next t) :
    (∃ e, i = .run e ∧ t = { s.startAt .hdr with expand := e, done := false, rspValid := false }) ∨
    (∃ w, t = s.respond w) ∨ t = s.raiseErr .range := by
  cases i with
  | lookup idx => exact .inr (.inl ⟨_, by injection h with h; exact h.symm⟩)
  | addr col row =>
    simp only [exec, execAddr] at h
    split at h <;> injection h with h
    · exact .inr (.inr h.symm)
    · exact .inr (.inl ⟨_, h.symm⟩)
  | sel byte pair => exact .inr (.inl ⟨_, by injection h with h; exact h.symm⟩)
  | resolve sel attrA attrB bg =>
    simp only [exec, execResolve] at h
    split at h
    · exact absurd h (by simp)
    · injection h with h
      exact .inr (.inl ⟨_, h.symm⟩)
  | pixel col row =>
    simp only [exec, execPixel] at h
    split at h
    · injection h with h
      exact .inr (.inr h.symm)
    · split at h
      · exact absurd h (by simp)
      · injection h with h
        exact .inr (.inl ⟨_, h.symm⟩)
  | run e => exact .inl ⟨e, rfl, by injection h with h; exact h.symm⟩

/-- One step after the host's move: reset, nothing, an illegal word, a legal command, or a stream byte, and never two of
them. -/
theorem step_cases {s m t : State} (hm : hostMove s = .next m) (h : step s = .next t) :
    (m.rst = true ∧ t = m.resetBlock) ∨
    (m.rst = false ∧ ¬m.Accepts ∧ ¬m.Transfers ∧ t = m.noResponse) ∨
    (m.Accepts ∧ ¬m.Transfers ∧ ∃ e, decode m.cmdWord = .error e ∧ t = m.accepted.raiseErr .op) ∨
    (m.Accepts ∧ ¬m.Transfers ∧ ∃ i, decode m.cmdWord = .ok i ∧ exec i m.accepted = .next t) ∨
    (m.Transfers ∧ ¬m.Accepts ∧ ∃ b, m.streamByte = some b ∧
      t = (m.noResponse.transfer b m.outLast).advance.loadLatch) := by
  rw [step_of_hostMove hm] at h
  rcases blockStep_next h with ⟨h1, h2⟩ | ⟨h1, h2, h3, h4⟩ | ⟨h1, h2, h3, h4⟩ | ⟨h1, h2, h3, e, h4, h5⟩ |
    ⟨h1, h2, h3, i, h4, h5⟩ | ⟨h1, h2, h3, h4⟩
  · exact .inl ⟨h1, h2⟩
  · exact .inr (.inl ⟨h1, by simp [State.Accepts, h3], by simp [State.Transfers, h2], h4⟩)
  · exact .inr (.inl ⟨h1, by simp [State.Accepts, h2], by simp [State.Transfers, h3], h4⟩)
  · exact .inr (.inr (.inl ⟨⟨h2, h1, h3⟩, by simp [State.Transfers, h2], e, h4, h5⟩))
  · exact .inr (.inr (.inr (.inl ⟨⟨h2, h1, h3⟩, by simp [State.Transfers, h2], i, h4, h5⟩)))
  · obtain ⟨b, hb, ht⟩ := emitStep_next h4
    exact .inr (.inr (.inr (.inr ⟨⟨h2, h1, h3⟩, by simp [State.Accepts, h2], b, hb, ht⟩)))

/-- The ways the emitter's position can advance, with the last channel left to `nextPixel_cases`. -/
theorem advance_cases (s : State) (hp : s.phase ≠ .idle) :
    (s.phase = .hdr ∧ ∃ h : s.hdrI.val < 37, s.advance = { s with hdrI := ⟨s.hdrI.val + 1, Nat.succ_lt_succ h⟩ }) ∨
    (s.phase = .hdr ∧ s.hdrI.val = 37 ∧ s.advance = { s with phase := .pix, hdrI := 0 }) ∨
    (s.phase = .pix ∧ s.chan = .r ∧ s.advance = { s with chan := .g }) ∨
    (s.phase = .pix ∧ s.chan = .g ∧ s.advance = { s with chan := .b }) ∨
    (s.phase = .pix ∧ s.chan = .b ∧ s.advance = s.nextPixel) := by
  have hi : s.hdrI.val < 38 := s.hdrI.isLt
  unfold State.advance
  cases h : s.phase with
  | idle => exact absurd h hp
  | hdr =>
    simp only [true_and, reduceCtorEq, false_and, or_false]
    by_cases h37 : s.hdrI.val < 37
    · exact .inl ⟨h37, by rw [dif_pos h37]⟩
    · exact .inr ⟨by omega, by rw [dif_neg h37]⟩
  | pix => cases hc : s.chan <;> simp

end Sys2Proof.Machine
end

