-- ==== Sys2Proof/Tests/Slice0.lean ====
section
/-! SUPPORT. The model's own tests. Expected results are taken from spec/30_encoding.md (the formats, R88) and
spec/95_test_vectors.md; the witnesses at the end meet the hypotheses of the statements. -/

namespace Sys2Proof.Tests

open Sys2Proof Sys2Proof.Machine

/-! ## States the tests run on -/

/-- A palette with a value of its own in every entry; entry 0 is black (R93). -/
def testRom : Vector Rgb 16 :=
  #v[⟨0x00, 0x00, 0x00⟩, ⟨0x11, 0x21, 0x31⟩, ⟨0x12, 0x22, 0x32⟩, ⟨0x13, 0x23, 0x33⟩,
     ⟨0x14, 0x24, 0x34⟩, ⟨0x15, 0x25, 0x35⟩, ⟨0x16, 0x26, 0x36⟩, ⟨0x17, 0x27, 0x37⟩,
     ⟨0x18, 0x28, 0x38⟩, ⟨0x19, 0x29, 0x39⟩, ⟨0x1A, 0x2A, 0x3A⟩, ⟨0x1B, 0x2B, 0x3B⟩,
     ⟨0x1C, 0x2C, 0x3C⟩, ⟨0x1D, 0x2D, 0x3D⟩, ⟨0x1E, 0x2E, 0x3E⟩, ⟨0x1F, 0x2F, 0x3F⟩]

/-- The image `I1` of 95_test_vectors.md 2.5. -/
def i1 : Memory := [(2, 0xE4), (8002, 0x1F), (9002, 0xF3), (10002, 0x05)]

/-- `I1` with a background byte of 16 or more. -/
def i1High : Memory := [(2, 0xE4), (8002, 0x1F), (9002, 0xF3), (10002, 0x25)]

/-- The state after reset with the test palette, a policy, an image and host moves to come. -/
def machine (p : BgPolicy) (img : Memory) (moves : List HostMove) : State :=
  { State.reset with rom := testRom, bgPolicy := p, img := img, script := moves }

/-- The host about to offer a word, over `I1`. -/
def offering (w : Word) : State := machine .mask i1 [.offer w]

/-- The same after the host's move. -/
def offered (w : Word) : State := { offering w with script := [], cmdValid := true, cmdWord := w }

/-- Start of the header, the host ready, over zeros. -/
def atHeader : State := { machine .mask [] [] with phase := .hdr, outReady := true }

/-- The last byte of a stream, with or without expansion, the host ready, over zeros. -/
def atLast (e : Bool) : State :=
  { machine .mask [] [] with
    phase := .pix, col := 159, row := 199, dup := e, chan := .b, expand := e, outReady := true }

/-- A pixel that faults: selector 0, background 0x25, policy FAULT. -/
def atFault : State := { machine .fault i1High [] with phase := .pix, col := 3, outReady := true }

/-- Response port and STATUS of a next state. -/
def answer : Host.Outcome State Fault Refusal → Option (Bool × Bool × Word × BitVec 5)
  | .next t => some (t.rspValid, t.rspErr, t.rspWord, t.status)
  | .fault _ => none
  | .refused _ => none

/-- Position and STATUS of a next state, with what its step delivered last. -/
def progress : Host.Outcome State Fault Refusal → Option (Option Nat × BitVec 5 × Option PortEvent)
  | .next t => some (t.position, t.status, t.log.head?)
  | .fault _ => none
  | .refused _ => none

/-- The stop of a step, where it stops. -/
def stop : Host.Outcome State Fault Refusal → Option (Fault ⊕ Refusal)
  | .next _ => none
  | .fault f => some (.inl f)
  | .refused r => some (.inr r)

/-! ## Assembly lines that are not well formed (R86), one for each check -/

theorem test_wf_lookup : (Asm.lookup 16).wellFormed = false ∧ assemble (.lookup 16) = none := by decide
theorem test_wf_addr_col : (Asm.addr 256 0).wellFormed = false ∧ assemble (.addr 256 0) = none := by decide
theorem test_wf_addr_row : (Asm.addr 0 256).wellFormed = false ∧ assemble (.addr 0 256) = none := by decide
theorem test_wf_sel_byte : (Asm.sel 256 0).wellFormed = false ∧ assemble (.sel 256 0) = none := by decide
theorem test_wf_sel_pair : (Asm.sel 0 4).wellFormed = false ∧ assemble (.sel 0 4) = none := by decide
theorem test_wf_resolve_sel : (Asm.resolve 4 0 0 0).wellFormed = false ∧ assemble (.resolve 4 0 0 0) = none := by
  decide
theorem test_wf_resolve_a : (Asm.resolve 0 256 0 0).wellFormed = false ∧ assemble (.resolve 0 256 0 0) = none := by
  decide
theorem test_wf_resolve_b : (Asm.resolve 0 0 256 0).wellFormed = false ∧ assemble (.resolve 0 0 256 0) = none := by
  decide
theorem test_wf_resolve_bg : (Asm.resolve 0 0 0 256).wellFormed = false ∧ assemble (.resolve 0 0 0 256) = none := by
  decide
theorem test_wf_pixel_col : (Asm.pixel 256 0).wellFormed = false ∧ assemble (.pixel 256 0) = none := by decide
theorem test_wf_pixel_row : (Asm.pixel 0 256).wellFormed = false ∧ assemble (.pixel 0 256) = none := by decide
theorem test_wf_run : (Asm.run (some 2)).wellFormed = false ∧ assemble (.run (some 2)) = none := by decide
theorem test_wf_word : (Asm.word 0x100000000).wellFormed = false ∧ assemble (.word 0x100000000) = none := by decide

/-! ## Decoding: words written out from the formats R74 to R79, op code first -/

theorem test_decode_lookup : decodeTableWord 32 0b0001_000000000000000000000000_0011 = some (.lookup 3) := by decide
theorem test_decode_addr : decodeTableWord 32 0b0010_000000000000_11000111_10011110 = some (.addr 158 199) := by decide
theorem test_decode_sel : decodeTableWord 32 0b0011_000000000000000000_01_11100100 = some (.sel 0xE4 1) := by decide
theorem test_decode_resolve :
    decodeTableWord 32 0b0100_00_11_11110011_00011111_00000101 = some (.resolve 3 0x1F 0xF3 0x05) := by decide
theorem test_decode_pixel : decodeTableWord 32 0b0101_000000000000_00000001_00000100 = some (.pixel 4 1) := by decide
theorem test_decode_run : decodeTableWord 32 0b0110_000000000000000000000000000_1 = some (.run true) := by decide
theorem test_decode_reserved_op : decode 0x80000000 = .error .reservedOp ∧ decode 0 = .error .reservedOp :=
  ⟨rfl, rfl⟩
/-- R172 and the `.word` rows of 95_test_vectors.md: a reserved bit of each format. -/
theorem test_decode_reserved_bit :
    [0x10000010, 0x20010000, 0x30000400, 0x44000000, 0x50010000, 0x60000002].map (decodeTableWord 32) =
      [none, none, none, none, none, none] := by decide

/-! ## Effects (95_test_vectors.md section 2) -/

theorem test_lookup_entry : answer (step (offering 0x10000003)) = some (true, false, 0x00132333, 0b00000) := by decide
theorem test_lookup_black : answer (step (offering 0x10000000)) = some (true, false, 0x00000000, 0b00000) := by decide
theorem test_addr : answer (step (offering 0x2000C69E)) = some (true, false, 0x03E71F3E, 0b00000) := by decide
theorem test_addr_range : answer (step (offering 0x200000A0)) = some (true, true, 0x00000000, 0b01000) := by decide
theorem test_sel_pair1 : answer (step (offering 0x300001E4)) = some (true, false, 2, 0b00000) := by decide
theorem test_sel_pair3 : answer (step (offering 0x30000303)) = some (true, false, 3, 0b00000) := by decide
theorem test_resolve_plane_b : answer (step (offering 0x43F31F05)) = some (true, false, 3, 0b00000) := by decide
theorem test_resolve_fault : stop (step (machine .fault i1 [.offer 0x40CDAB25])) = some (.inl .bgHighNibble) := by decide
theorem test_pixel : answer (step (offering 0x50000001)) = some (true, false, 0x2F1F2F3F, 0b00000) := by decide
theorem test_pixel_range : answer (step (offering 0x500000A0)) = some (true, true, 0x00000000, 0b01000) := by decide
theorem test_run : progress (step (offering 0x60000001)) = some (some 0, 0b10001, none) := by decide
/-- 95_test_vectors.md 2.7: the word with reserved bits and an out-of-range column is ERR_OP only (R174). -/
theorem test_illegal : answer (step (offering 0x20FF00A0)) = some (true, true, 0x00000000, 0b00100) := by decide

/-! ## The emitter (95_test_vectors.md 2.6) -/

/-- The first byte is the letter P. -/
theorem test_first_byte : progress (step atHeader) = some (some 1, 0b00001, some (.byte 0x50 false)) := by decide
/-- The header ends with a newline, and byte 38 is the first of the body. -/
theorem test_header_end :
    progress (step { atHeader with hdrI := 37 }) = some (some 38, 0b00001, some (.byte 0x0A false)) := by decide
/-- Byte 998 starts row 1 of the expanded stream. -/
theorem test_row_end :
    progress (step { atLast true with row := 0 }) = some (some 998, 0b10001, some (.byte 0x00 false)) := by decide
/-- R of the second copy of pixel (80, 100) is byte 96,521 with expansion; R of that pixel is byte 48,278 without. -/
theorem test_positions :
    ({ atLast true with col := 80, row := 100, dup := true, chan := .r } : State).position = some 96521 ∧
    ({ atLast false with col := 80, row := 100, chan := .r } : State).position = some 48278 := by decide
/-- `out_last` and the final status of a plain run. -/
theorem test_last_byte :
    progress (step (atLast false)) = some (none, 0b00010, some (.byte 0x00 true)) := by decide
/-- `out_last` and the final status of an expanded run. -/
theorem test_last_byte_expanded :
    progress (step (atLast true)) = some (none, 0b10010, some (.byte 0x00 true)) := by decide
/-- A RUN offered while BUSY is held (R70). -/
theorem test_command_held :
    ((progress (step { atHeader with cmdValid := true, cmdWord := 0x60000000, outReady := false })).map (·.1)) =
      some (some 0) := by decide
/-- Program 6: reset within a stream. -/
theorem test_reset_in_stream :
    progress (step { atHeader with expand := true, hdrI := 20, script := [.reset true] }) =
      some (none, 0b00000, none) := by decide

/-! ## Steps that stop -/

theorem test_emitter_fault : stop (step atFault) = some (.inl .bgHighNibble) := by decide
theorem test_write_while_busy :
    stop (step { atHeader with script := [.writeImg 2 0xFF] }) = some (.inr .imgWriteInFlight) := by decide
theorem test_write_while_idle :
    (match step (machine .mask i1 [.writeImg 8002 0x00]) with
      | .next t => t.img
      | .fault _ => []
      | .refused _ => []) = [(2, 0xE4), (9002, 0xF3), (10002, 0x05)] := by decide

/-! ## Facts the witnesses use -/

theorem offered_accepts (w : Word) :
    hostMove (offering w) = .next (offered w) ∧ (offered w).Accepts ∧ (offered w).cmdWord = w :=
  ⟨rfl, ⟨rfl, rfl, rfl⟩, rfl⟩

theorem selector_zero (p : BitVec 2) : selector 0 p = 0 := by
  revert p
  decide

/-- An image of zeros decodes to black everywhere (V-L1-7). -/
theorem decodes_black {s : State} (hi : s.img = []) (hp : s.bgPolicy = .mask) (hr : s.rom = testRom) :
    s.Decodes fun _ _ => Rgb.black := by
  intro c r
  refine pixelRgb_eq_some.2 ⟨0, ?_, ?_⟩
  · have hsel : s.pixelSel c r = 0 := by
      unfold State.pixelSel
      rw [hi]
      exact selector_zero _
    unfold State.pixelIdx
    rw [hsel, hi, hp]
    rfl
  · unfold State.romRead
    simp only [hr]
    rfl

/-- The invariant of a state with a canonical image and the test palette, from its decidable parts. -/
theorem inv_of {s : State} (h1 : s.img.wf = true) (h2 : s.romRead 0 = Rgb.black)
    (h3 : s.expand = false → s.dup = false)
    (h4 : s.phase = .idle → s.hdrI = 0 ∧ s.row = 0 ∧ s.col = 0 ∧ s.dup = false ∧ s.chan = .r)
    (h5 : s.phase = .hdr → s.row = 0 ∧ s.col = 0 ∧ s.dup = false ∧ s.chan = .r) (h6 : s.phase = .pix → s.hdrI = 0)
    (h7 : s.phase ≠ .idle → s.done = false) (h8 : s.rspErr = true → s.rspWord = 0)
    (h9 : s.rspErr = true → s.errOp = true ∨ s.errRange = true)
    (h10 : s.phase = .pix → s.pixelRgb s.col s.row = some s.pixRgb) : s.Inv :=
  ⟨h1, h2, h3, h4, h5, h6, h7, h8, h9, fun hp t ht => by rw [h10 hp] at ht; exact Option.some.inj ht⟩

theorem inv_offering (w : Word) : (offering w).Inv := by
  apply inv_of <;> intros <;> first | rfl | contradiction | exact ⟨rfl, rfl, rfl, rfl, rfl⟩

theorem inv_atHeader : atHeader.Inv := by apply inv_of <;> decide

theorem inv_atLast (e : Bool) : (atLast e).Inv := by cases e <;> apply inv_of <;> decide

/-! ## Witnesses: for each statement with hypotheses, a state and operands that meet all of them -/

theorem witness_LegalIffOneRowSelects :
    (∃ r ∈ opTable, (0x60000001 : Word) &&& r.mask = r.matchBits) ∧
    hostMove (offering 0x70000000) = .next (offered 0x70000000) ∧ (offered 0x70000000).Accepts ∧
    decode (offered 0x70000000).cmdWord = .error .reservedOp ∧
    hostMove (offering 0x60000002) = .next (offered 0x60000002) ∧ (offered 0x60000002).Accepts ∧
    decode (offered 0x60000002).cmdWord = .error .reservedBit :=
  ⟨by decide, rfl, ⟨rfl, rfl, rfl⟩, rfl, rfl, ⟨rfl, rfl, rfl⟩, rfl⟩

theorem witness_AddressFormulasHold :
    (159 : Byte).toNat ≤ 159 ∧ (199 : Byte).toNat ≤ 199 ∧ 160 ≤ (160 : Byte).toNat ∧ 200 ≤ (200 : Byte).toNat := by
  decide

theorem witness_AddressBitForm :
    gridPos 159 199 = some (159, 199) ∧ gridPos 0 0 = some (0, 0) := by decide

theorem witness_AddressMapIsBijection :
    (0 : Col).val / 4 = (3 : Col).val / 4 ∧ (0 : Row).val / 8 = (7 : Row).val / 8 ∧
    bmOff 159 199 = bmOff 159 199 ∧ pairIndex 159 = pairIndex 159 ∧ 7999 < 8000 ∧ 3 < 4 := by decide

theorem witness_ColourSourcesHold : (15 : Byte).toNat < 16 := by decide

/-- Two images that differ outside the four bytes of pixel (0, 0). -/
theorem witness_PixelDependsOnFourBytes :
    ∃ s t : State, s.img ≠ t.img ∧ s.img.read 2 = t.img.read 2 ∧ s.img.read 8002 = t.img.read 8002 ∧
      s.img.read 9002 = t.img.read 9002 ∧ s.img.read 10002 = t.img.read 10002 ∧ s.rom = t.rom ∧
      s.bgPolicy = t.bgPolicy :=
  ⟨machine .mask i1 [], machine .mask ((0, 0x60) :: i1) [], by decide⟩

theorem witness_SelectorZeroIgnoresAttributes : (machine .mask i1 []).pixelSel 3 0 = 0 := by decide

theorem witness_LookupResult :
    (0x1000000F : Word) &&& 0xFFFFFFF0 = 0x10000000 ∧
    (0x10000010 : Word).extractLsb' 28 4 = 1 ∧ (0x10000010 : Word).extractLsb' 4 24 ≠ 0 ∧
    (∃ t, exec (.lookup 15) (offering 0) = .next t) ∧
    (offering 0).Inv ∧ ∃ t, exec (.lookup 0) (offering 0) = .next t :=
  ⟨by decide, by decide, by decide, ⟨_, rfl⟩, inv_offering 0, ⟨_, rfl⟩⟩

theorem witness_AddrResult :
    (0x2000C79F : Word) &&& 0xFFFF0000 = 0x20000000 ∧
    (0x20010000 : Word).extractLsb' 28 4 = 2 ∧ (0x20010000 : Word).extractLsb' 16 12 ≠ 0 ∧
    (159 : Byte).toNat ≤ 159 ∧ (199 : Byte).toNat ≤ 199 ∧ 160 ≤ (160 : Byte).toNat ∧ 200 ≤ (200 : Byte).toNat := by
  decide

theorem witness_SelResult :
    (0x300003FF : Word) &&& 0xFFFFFC00 = 0x30000000 ∧
    (0x30000400 : Word).extractLsb' 28 4 = 3 ∧ (0x30000400 : Word).extractLsb' 10 18 ≠ 0 := by decide

/-- Under FAULT: selector 0 with background 15 runs, so does selector 1 with background 0xFF, and selector 0 with
background 16 faults; under MASK selector 0 with 0xFF runs. -/
theorem witness_ResolveResult :
    (0x43FFFFFF : Word) &&& 0xFC000000 = 0x40000000 ∧
    (0x44000000 : Word).extractLsb' 28 4 = 4 ∧ (0x44000000 : Word).extractLsb' 26 2 ≠ 0 ∧
    ¬((machine .fault i1 []).bgPolicy = .fault ∧ (0 : BitVec 2) = 0 ∧ 16 ≤ (0x0F : Byte).toNat) ∧
    ¬((machine .fault i1 []).bgPolicy = .fault ∧ (1 : BitVec 2) = 0 ∧ 16 ≤ (0xFF : Byte).toNat) ∧
    ¬((machine .mask i1 []).bgPolicy = .fault ∧ (0 : BitVec 2) = 0 ∧ 16 ≤ (0xFF : Byte).toNat) ∧
    ((machine .fault i1 []).bgPolicy = .fault ∧ (0 : BitVec 2) = 0 ∧ 16 ≤ (0x10 : Byte).toNat) := by decide

/-- Pixel (3, 0) of `I1` has selector 0: it runs under both policies, and faults under FAULT once the background byte is
0x25; (0, 0) has selector 3. -/
theorem witness_PixelResult :
    (0x5000C79F : Word) &&& 0xFFFF0000 = 0x50000000 ∧
    (0x50010000 : Word).extractLsb' 28 4 = 5 ∧ (0x50010000 : Word).extractLsb' 16 12 ≠ 0 ∧
    ((machine .fault i1 []).img.read 2).toNat / 2 ^ (6 - 2 * ((3 : Byte).toNat % 4)) % 4 = 0 ∧
    ¬16 ≤ ((machine .fault i1 []).img.read 10002).toNat ∧
    ((machine .fault i1 []).img.read 2).toNat / 2 ^ (6 - 2 * ((0 : Byte).toNat % 4)) % 4 = 3 ∧
    ((machine .fault i1High []).img.read 2).toNat / 2 ^ (6 - 2 * ((3 : Byte).toNat % 4)) % 4 = 0 ∧
    16 ≤ ((machine .fault i1High []).img.read 10002).toNat ∧ (machine .fault i1High []).bgPolicy = .fault ∧
    160 ≤ (160 : Byte).toNat ∧ 200 ≤ (200 : Byte).toNat := by decide

theorem witness_RunResult :
    (0x60000001 : Word) &&& 0xFFFFFFFE = 0x60000000 ∧
    (0x60000002 : Word).extractLsb' 28 4 = 6 ∧ (0x60000002 : Word).extractLsb' 1 27 ≠ 0 ∧
    ∃ t, exec (.run true) (offering 0) = .next t := ⟨by decide, by decide, by decide, _, rfl⟩

theorem witness_RespondingFrame :
    (∀ e, Instr.addr 160 0 ≠ .run e) ∧ (∃ t, exec (.addr 160 0) (offering 0) = .next t) ∧
    (∀ e, Instr.pixel 159 199 ≠ .run e) ∧ (∃ t, exec (.pixel 159 199) (offering 0) = .next t) ∧
    (∀ e, Instr.resolve 0 1 2 3 ≠ .run e) ∧ (∃ t, exec (.resolve 0 1 2 3) (offering 0) = .next t) :=
  ⟨by simp, ⟨_, rfl⟩, by simp, ⟨_, rfl⟩, by simp, ⟨_, rfl⟩⟩

theorem witness_RunFrame : ∃ t, exec (.run false) (offering 0) = .next t := ⟨_, rfl⟩

theorem witness_UnitOperationsComposeToPixel :
    gridPos 2 0 = some (2, 0) ∧ ∃ t, exec (.pixel 2 0) (machine .mask i1 []) = .next t := ⟨by decide, _, rfl⟩

theorem witness_IllegalWordRaisesErrOp :
    hostMove (offering 0x80000000) = .next (offered 0x80000000) ∧ (offered 0x80000000).Accepts ∧
    ∀ r ∈ opTable, (offered 0x80000000).cmdWord &&& r.mask ≠ r.matchBits :=
  ⟨rfl, ⟨rfl, rfl, rfl⟩, by decide⟩

theorem witness_OneErrorPerCommand :
    (∀ w, hostMove (offering w) = .next (offered w) ∧ (offered w).Accepts ∧ (offered w).cmdWord = w) ∧
    (∃ t, step (offering 0x20FF00A0) = .next t ∧ decode (offered 0x20FF00A0).cmdWord = .error .reservedBit) ∧
    (∃ t, step (offering 0x200000A0) = .next t ∧ decode (offered 0x200000A0).cmdWord = .ok (.addr 160 0)) ∧
    (∃ t, step (offering 0x5000C800) = .next t ∧ decode (offered 0x5000C800).cmdWord = .ok (.pixel 0 200)) ∧
    160 ≤ (160 : Byte).toNat ∧ 200 ≤ (200 : Byte).toNat :=
  ⟨offered_accepts, ⟨_, rfl, rfl⟩, ⟨_, rfl, rfl⟩, ⟨_, rfl, rfl⟩, by decide, by decide⟩

/-- Both bits set, with a step that goes on, and with a reset. -/
theorem witness_ErrorBitsAreSticky :
    (∃ s m t : State, hostMove s = .next m ∧ step s = .next t ∧ s.errOp = true ∧ s.errRange = true ∧ m.rst = false) ∧
    ∃ s m t : State, hostMove s = .next m ∧ step s = .next t ∧ s.errOp = true ∧ s.errRange = true ∧ m.rst = true :=
  ⟨⟨{ offering 0x10000000 with errOp := true, errRange := true }, _, _, rfl, rfl, rfl, rfl, rfl⟩,
   ⟨{ machine .mask i1 [.reset true] with errOp := true, errRange := true }, _, _, rfl, rfl, rfl, rfl, rfl⟩⟩

theorem witness_OnlyBgHighNibbleFaults :
    step atFault = .fault .bgHighNibble ∧ ∃ t, step (offering 0x10000003) = .next t := ⟨rfl, _, rfl⟩

theorem witness_OnlyImageWriteInFlightRefused :
    step { atHeader with script := [.writeImg 2 0xFF] } = .refused .imgWriteInFlight ∧
    step { machine .mask i1 [.writeImg 2 0xFF] with cmdValid := true } = .refused .imgWriteInFlight := ⟨rfl, rfl⟩

theorem witness_StepRunsDecodedOperation :
    hostMove (offering 0x10000003) = .next (offered 0x10000003) ∧ (offered 0x10000003).Accepts ∧
    decode (offered 0x10000003).cmdWord = .ok (.lookup 3) ∧
    (offering 0x10000003).script = .offer 0x10000003 :: [] ∧ (offering 0x10000003).cmdValid = false ∧
    (offered 0x10000003).script = [] := ⟨rfl, ⟨rfl, rfl, rfl⟩, rfl, rfl, rfl, rfl⟩

theorem witness_PlacedWordRunsNext : decode 0x43F31F05 = .ok (.resolve 3 0x1F 0xF3 0x05) := rfl

theorem witness_CommandIsHeldWhileBusy :
    (∃ s m t : State, hostMove s = .next m ∧ m.phase ≠ .idle ∧ m.rst = false ∧ m.cmdValid = true ∧ step s = .next t) ∧
    ∃ s m : State, s.cmdValid = true ∧ s.script = .offer 0x10000003 :: [] ∧ hostMove s = .next m :=
  ⟨⟨{ atHeader with cmdValid := true }, _, _, rfl, by decide, rfl, rfl, rfl⟩,
   ⟨{ offering 0x10000003 with cmdValid := true }, _, rfl, rfl, rfl⟩⟩

theorem witness_OneResponsePerCommand :
    (∃ s m t : State, hostMove s = .next m ∧ step s = .next t ∧ m.Accepts ∧ ∀ e, decode m.cmdWord ≠ .ok (.run e)) ∧
    (∃ s m t : State, hostMove s = .next m ∧ step s = .next t ∧ m.Accepts ∧ decode m.cmdWord = .ok (.run true)) ∧
    (∃ s m t : State, hostMove s = .next m ∧ step s = .next t ∧ ¬m.Accepts) ∧
    ∃ s m : State, hostMove s = .next m ∧ ¬m.Accepts ∧ m.rst = false ∧ m.phase = .idle ∧ s.rspWord ≠ 0 :=
  ⟨⟨offering 0x10000003, offered 0x10000003, _, rfl, rfl, ⟨rfl, rfl, rfl⟩, (fun _ h => nomatch h)⟩,
   ⟨offering 0x60000001, offered 0x60000001, _, rfl, rfl, ⟨rfl, rfl, rfl⟩, rfl⟩,
   ⟨atHeader, _, _, rfl, rfl, (fun h => nomatch h.1)⟩,
   ⟨{ machine .mask i1 [.ready true] with rspWord := 7 }, _, rfl, (fun h => nomatch h.2.2), rfl, rfl, by decide⟩⟩

theorem witness_EmitterHoldsUntilReady :
    atHeader.rst = false ∧
    (∃ s m : State, hostMove s = .next m ∧ m.phase ≠ .idle ∧ m.rst = false ∧ m.outReady = false) ∧
    (∃ s m t : State, hostMove s = .next m ∧ m.Transfers ∧ step s = .next t) ∧
    ∃ s m t : State, hostMove s = .next m ∧ ¬m.Transfers ∧ step s = .next t :=
  ⟨rfl, ⟨{ atHeader with outReady := false }, _, rfl, by decide, rfl, rfl⟩,
   ⟨atHeader, _, _, rfl, ⟨by decide, rfl, rfl⟩, rfl⟩,
   ⟨{ atHeader with outReady := false }, _, _, rfl, (fun h => nomatch h.2.2), rfl⟩⟩

/-- The first byte and the last byte of both streams. -/
theorem witness_EachByteIsTheStreamsNext :
    (hostMove atHeader = .next atHeader ∧ atHeader.Transfers ∧ atHeader.Inv ∧
      atHeader.Decodes (fun _ _ => Rgb.black) ∧ atHeader.position = some 0) ∧
    (hostMove (atLast false) = .next (atLast false) ∧ (atLast false).Transfers ∧ (atLast false).Inv ∧
      (atLast false).Decodes (fun _ _ => Rgb.black) ∧ (atLast false).position = some 96037) ∧
    (hostMove (atLast true) = .next (atLast true) ∧ (atLast true).Transfers ∧ (atLast true).Inv ∧
      (atLast true).Decodes (fun _ _ => Rgb.black) ∧ (atLast true).position = some 192037) :=
  ⟨⟨rfl, ⟨by decide, rfl, rfl⟩, inv_atHeader, decodes_black rfl rfl rfl, by decide⟩,
   ⟨rfl, ⟨by decide, rfl, rfl⟩, inv_atLast false, decodes_black rfl rfl rfl, by decide⟩,
   ⟨rfl, ⟨by decide, rfl, rfl⟩, inv_atLast true, decodes_black rfl rfl rfl, by decide⟩⟩

theorem witness_OutLastMarksTheLastByte :
    (atLast true).Inv ∧ (atLast true).outLast = true ∧ atHeader.Inv ∧ atHeader.outLast = false :=
  ⟨inv_atLast true, by decide, inv_atHeader, by decide⟩

theorem witness_RunEndsWithLastByte :
    ∃ t, hostMove (atLast false) = .next (atLast false) ∧ (atLast false).Inv ∧ (atLast false).Transfers ∧
      (atLast false).outLast = true ∧ step (atLast false) = .next t ∧ (atLast false).done = false ∧ t.done = true :=
  ⟨_, rfl, inv_atLast false, ⟨by decide, rfl, rfl⟩, by decide, rfl, rfl, by decide⟩

theorem witness_DoneChangesOnlyByRunAndReset :
    (∃ s m t : State, hostMove s = .next m ∧ step s = .next t ∧ m.rst = true) ∧
    (∃ s m t : State, hostMove s = .next m ∧ step s = .next t ∧ m.Accepts ∧ decode m.cmdWord = .ok (.run true)) ∧
    (∃ s m t : State, hostMove s = .next m ∧ step s = .next t ∧ m.Transfers ∧ m.outLast = true) ∧
    ∃ s m t : State, hostMove s = .next m ∧ step s = .next t ∧ m.rst = false ∧ s.done = true ∧
      ¬(m.Accepts ∧ ∃ e, decode m.cmdWord = .ok (.run e)) ∧ ¬(m.Transfers ∧ m.outLast = true) :=
  ⟨⟨machine .mask i1 [.reset true], _, _, rfl, rfl, rfl⟩,
   ⟨offering 0x60000001, offered 0x60000001, _, rfl, rfl, ⟨rfl, rfl, rfl⟩, rfl⟩,
   ⟨atLast true, atLast true, _, rfl, rfl, ⟨by decide, rfl, rfl⟩, by decide⟩,
   ⟨{ offering 0x10000003 with done := true }, { offered 0x10000003 with done := true }, _, rfl, rfl, rfl, rfl,
    (fun ⟨_, _, h⟩ => nomatch h), fun ⟨h, _⟩ => h.1 rfl⟩⟩

theorem witness_ExpandSampledOnlyAtRun :
    (∃ s m t : State, hostMove s = .next m ∧ step s = .next t ∧ m.rst = true ∧ s.expand = true) ∧
    (∃ s m t : State, hostMove s = .next m ∧ step s = .next t ∧ m.Accepts ∧ decode m.cmdWord = .ok (.run true)) ∧
    ∃ s m t : State, hostMove s = .next m ∧ step s = .next t ∧ m.rst = false ∧
      ¬(m.Accepts ∧ ∃ e, decode m.cmdWord = .ok (.run e)) :=
  ⟨⟨{ atLast true with script := [.reset true] }, _, _, rfl, rfl, rfl, rfl⟩,
   ⟨offering 0x60000001, offered 0x60000001, _, rfl, rfl, ⟨rfl, rfl, rfl⟩, rfl⟩,
   ⟨offering 0x10000003, offered 0x10000003, _, rfl, rfl, rfl, (fun ⟨_, _, h⟩ => nomatch h)⟩⟩

/-- A step with no write, and a write of the last byte of IMG. -/
theorem witness_RomFixedImageHostWritten :
    (∃ t, (offering 0x10000003).Inv ∧ step (offering 0x10000003) = .next t ∧
      ∀ a v rest, (offering 0x10000003).script ≠ .writeImg a v :: rest) ∧
    ∃ s t : State, s.Inv ∧ step s = .next t ∧ s.script = .writeImg 10002 0x0E :: [] :=
  ⟨⟨_, inv_offering _, rfl, (fun _ _ _ h => nomatch h)⟩,
   ⟨{ offering 0 with script := [.writeImg 10002 0x0E] }, _, by
      apply inv_of <;> intros <;> first | rfl | contradiction | exact ⟨rfl, rfl, rfl, rfl, rfl⟩, rfl, rfl⟩⟩

/-- The extremes of what the emitter and PIXEL read. -/
theorem witness_ReadsStayInsideThePlanes :
    (offered 0x50000000).imgReads = [2, 8002, 9002, 10002] ∧ (atLast false).imgReads = [8001, 9001, 10001, 10002] := by
  decide

/-- Images that differ in byte 0: a step that goes on, one that faults, one that is refused. -/
theorem witness_MarkerBytesHaveNoInfluence :
    (Memory.wf i1 = true ∧ Memory.wf ((0, 0x60) :: i1) = true ∧
      ∀ a, 2 ≤ a → Memory.read i1 a = Memory.read ((0, 0x60) :: i1) a) ∧
    (∃ s t : State, s.img.wf = true ∧ step s = .next t) ∧
    (∃ s : State, s.img.wf = true ∧ step s = .fault .bgHighNibble) ∧
    ∃ s : State, s.img.wf = true ∧ step s = .refused .imgWriteInFlight :=
  ⟨⟨rfl, rfl, fun a ha => by
      have h : 0 ≠ a := by omega
      show Memory.read i1 a = if 0 = a then 0x60 else Memory.read i1 a
      rw [if_neg h]⟩,
   ⟨offering 0x50000000, _, rfl, rfl⟩, ⟨atFault, rfl, rfl⟩,
   ⟨{ atHeader with script := [.writeImg 2 0xFF] }, rfl, rfl⟩⟩

theorem witness_ResetInputResetsTheBlock :
    ∃ s m : State, s.phase = .pix ∧ hostMove s = .next m ∧ m.rst = true :=
  ⟨{ atLast true with script := [.reset true] }, _, rfl, rfl, rfl⟩

theorem witness_StepKeepsInvariant :
    (∃ t, atHeader.Inv ∧ step atHeader = .next t) ∧ (∃ t, (atLast true).Inv ∧ step (atLast true) = .next t) ∧
    ∃ t, (offering 0x50000001).Inv ∧ step (offering 0x50000001) = .next t :=
  ⟨⟨_, inv_atHeader, rfl⟩, ⟨_, inv_atLast true, rfl⟩, ⟨_, inv_offering _, rfl⟩⟩

theorem witness_StatusBitsHold : atHeader.rst = false ∧ (offering 0).rst = false := ⟨rfl, rfl⟩

theorem witness_HiddenLatchHasNoInfluence :
    (∃ t, step (atLast true) = .next t) ∧ step atFault = .fault .bgHighNibble ∧
    step { atHeader with script := [.writeImg 2 0xFF] } = .refused .imgWriteInFlight := ⟨⟨_, rfl⟩, rfl, rfl⟩

theorem witness_HeaderBytesHold : 25 ≠ 26 ∧ 28 ≠ 27 := by decide

theorem witness_ExpansionDuplicatesPixels : 2 < 3 := by decide

/-- From the first byte and from the last one. -/
theorem witness_StreamUnderAnyHost :
    (∃ t, atHeader.Inv ∧ atHeader.Decodes (fun _ _ => Rgb.black) ∧ atHeader.position = some 0 ∧
      atHeader.rst = false ∧ noReset atHeader.script ∧ Runs 2 atHeader t) ∧
    ∃ t, (atLast true).Inv ∧ (atLast true).Decodes (fun _ _ => Rgb.black) ∧
      (atLast true).position = some 192037 ∧ (atLast true).rst = false ∧ noReset (atLast true).script ∧
      Runs 1 (atLast true) t :=
  ⟨⟨_, inv_atHeader, decodes_black rfl rfl rfl, by decide, rfl, (fun _ h => nomatch h), rfl⟩,
   ⟨_, inv_atLast true, decodes_black rfl rfl rfl, by decide, rfl, (fun _ h => nomatch h), rfl⟩⟩

/-- The start of a run over zeros with a ready host. -/
def starting : State := { machine .mask [] [.offer 0x60000000] with outReady := true }

theorem witness_ReadyHostGetsTheWholeStream :
    starting.phase = .idle ∧ starting.rst = false ∧ starting.cmdValid = false ∧ starting.outReady = true ∧
    starting.script = [.offer 0x60000000] ∧ decode 0x60000000 = .ok (.run false) ∧
    starting.Decodes (fun _ _ => Rgb.black) ∧ 96038 ≤ streamLength false :=
  ⟨rfl, rfl, rfl, rfl, rfl, rfl, decodes_black rfl rfl rfl, by decide⟩

theorem witness_CutStreamIsAPrefix :
    ∃ t u, starting.phase = .idle ∧ starting.rst = false ∧ starting.cmdValid = false ∧ starting.outReady = true ∧
      starting.script = [.offer 0x60000000] ∧ starting.log = [] ∧ decode 0x60000000 = .ok (.run false) ∧
      starting.Decodes (fun _ _ => Rgb.black) ∧ 1 ≤ streamLength false ∧ Runs (1 + 1) starting t ∧
      step { t with script := [.reset true] } = .next u :=
  ⟨_, _, rfl, rfl, rfl, rfl, rfl, rfl, rfl, decodes_black rfl rfl rfl, by decide, rfl, rfl⟩

/-- The two runs start with different response registers and STATUS bits. -/
theorem witness_SameImageSameStream :
    ∃ s' t t' : State, s'.rspWord ≠ starting.rspWord ∧ s'.errOp ≠ starting.errOp ∧
      starting.phase = .idle ∧ starting.rst = false ∧ starting.cmdValid = false ∧ starting.outReady = true ∧
      starting.script = [.offer 0x60000000] ∧ starting.log = [] ∧
      s'.phase = .idle ∧ s'.rst = false ∧ s'.cmdValid = false ∧ s'.outReady = true ∧
      s'.script = [.offer 0x60000000] ∧ s'.log = [] ∧ decode 0x60000000 = .ok (.run false) ∧
      (∀ a, starting.img.read a = s'.img.read a) ∧ starting.rom = s'.rom ∧ starting.bgPolicy = s'.bgPolicy ∧
      Runs 2 starting t ∧ Runs 2 s' t' :=
  ⟨{ starting with rspWord := 7, errOp := true }, _, _, by decide, by decide, rfl, rfl, rfl, rfl, rfl, rfl, rfl, rfl,
   rfl, rfl, rfl, rfl, rfl, fun _ => rfl, rfl, rfl, rfl, rfl⟩

theorem witness_MaskDecodesEveryImage : State.reset.bgPolicy = .mask := rfl

end Sys2Proof.Tests
end

section
/-! PROOFS. The family of 10_state.md: what a step of the block can make of the state, said once as `BlockEffect`, and
the statements about the state's fields derived from it. -/

namespace Sys2Proof.Machine

/-! ## STATUS (R28) -/

/-- Five bits put together are read off by their numbers. -/
theorem getElem_fiveBits (b4 b3 b2 b1 b0 : Bool) :
    let v : BitVec 5 :=
      BitVec.ofBool b4 ++ BitVec.ofBool b3 ++ BitVec.ofBool b2 ++ BitVec.ofBool b1 ++ BitVec.ofBool b0
    v[0] = b0 ∧ v[1] = b1 ∧ v[2] = b2 ∧ v[3] = b3 ∧ v[4] = b4 := by
  revert b4 b3 b2 b1 b0
  decide

theorem status_bits (s : State) :
    s.status[0] = s.busy ∧ s.status[1] = s.done ∧ s.status[2] = s.errOp ∧ s.status[3] = s.errRange ∧
      s.status[4] = s.expand :=
  getElem_fiveBits s.expand s.errRange s.errOp s.done s.busy

@[simp] theorem status_busy (s : State) : s.status[0] = s.busy := let ⟨h, _⟩ := status_bits s; h
@[simp] theorem status_done (s : State) : s.status[1] = s.done := let ⟨_, h, _⟩ := status_bits s; h
@[simp] theorem status_errOp (s : State) : s.status[2] = s.errOp := let ⟨_, _, h, _⟩ := status_bits s; h
@[simp] theorem status_errRange (s : State) : s.status[3] = s.errRange := let ⟨_, _, _, h, _⟩ := status_bits s; h
@[simp] theorem status_expand (s : State) : s.status[4] = s.expand := let ⟨_, _, _, _, h⟩ := status_bits s; h

/-- Settles O44: the bits are read off one by one, and `cmd_ready` is `NOT BUSY` once `rst = 0`. -/
theorem statusBitsHold : Obligations.StatusBitsHold := by
  intro s
  have hready : s.rst = false → s.cmdReady = !s.busy := fun hr => by simp [State.cmdReady, hr]
  simpa [State.busy] using hready

/-! ## What one step of the block does -/

/-- The state in which RUN leaves the block (R141). -/
def State.startRun (s : State) (e : Bool) : State :=
  { s.startAt .hdr with expand := e, done := false, rspValid := false }

@[simp] theorem startRun_phase (s : State) (e : Bool) : (s.startRun e).phase = .hdr := rfl
@[simp] theorem startRun_done (s : State) (e : Bool) : (s.startRun e).done = false := rfl

/-- The state an operation executes in, in the named updates that have their laws in Laws/State. -/
@[simp] theorem accepted_eq (s : State) : s.accepted = s.noResponse.takeCommand := rfl

/-- What the block makes of the state `m` after the host's move, one constructor for each way a step can go on. -/
inductive BlockEffect (m : State) : State → Prop
  /-- `rst = 1` (R190). -/
  | reset (hr : m.rst = true) : BlockEffect m m.resetBlock
  /-- No command is accepted and no byte is transferred. -/
  | hold (hr : m.rst = false) (ha : ¬m.Accepts) (ht : ¬m.Transfers) : BlockEffect m m.noResponse
  /-- A RUN is accepted (R141). -/
  | run (ha : m.Accepts) (e : Bool) (hd : decode m.cmdWord = .ok (.run e)) :
      BlockEffect m (m.accepted.startRun e)
  /-- An operation other than RUN is accepted and answered (R71). -/
  | respond (ha : m.Accepts) (hd : ∀ e, decode m.cmdWord ≠ .ok (.run e)) (w : Word) :
      BlockEffect m (m.accepted.respond w)
  /-- A word is accepted and answered by an error response (R171). -/
  | error (ha : m.Accepts) (hd : ∀ e, decode m.cmdWord ≠ .ok (.run e)) (k : ErrKind) :
      BlockEffect m (m.accepted.raiseErr k)
  /-- A stream byte is transferred (R150, R151). -/
  | byte (ht : m.Transfers) (b : Byte) (hb : m.streamByte = some b) :
      BlockEffect m (m.noResponse.transfer b m.outLast).advance.loadLatch

/-- RUN leaves the block BUSY, so an operation that leaves it IDLE is none. -/
theorem ne_run_of_exec_idle {i : Instr} {s t : State} (h : exec i s = .next t) (ht : t.phase = .idle)
    (e : Bool) : i ≠ .run e := by
  rintro rfl
  injection h with h
  rw [← h] at ht
  exact absurd ht (by simp)

/-- Every step that goes on is one of the effects. -/
theorem blockEffect_of_step {s m t : State} (hm : hostMove s = .next m) (h : step s = .next t) :
    BlockEffect m t := by
  rcases step_cases hm h with ⟨hr, rfl⟩ | ⟨hr, ha, ht, rfl⟩ | ⟨ha, -, e, hd, rfl⟩ | ⟨ha, -, i, hd, hx⟩ |
    ⟨ht, -, b, hb, rfl⟩
  · exact .reset hr
  · exact .hold hr ha ht
  · exact .error ha (by simp [hd]) .op
  · have hidle : m.accepted.phase = .idle := ha.1
    rcases exec_next hx with ⟨e, rfl, rfl⟩ | ⟨w, rfl⟩ | rfl
    · exact .run ha e hd
    · have hne := ne_run_of_exec_idle hx hidle
      exact .respond ha (by simpa [hd] using hne) w
    · have hne := ne_run_of_exec_idle hx (by simpa using ha.1)
      exact .error ha (by simpa [hd] using hne) .range
  · exact .byte ht b hb

theorem State.Accepts.rst_off {s : State} (h : s.Accepts) : s.rst = false :=
  let ⟨_, hr, _⟩ := h
  hr

theorem State.Transfers.rst_off {s : State} (h : s.Transfers) : s.rst = false :=
  let ⟨_, hr, _⟩ := h
  hr

/-- A block that accepts a command is not BUSY, so it transfers no byte. -/
theorem State.Accepts.not_transfers {s : State} (h : s.Accepts) : ¬s.Transfers := fun ht => ht.1 h.1

theorem State.Transfers.not_accepts {s : State} (h : s.Transfers) : ¬s.Accepts := fun ha => h.1 ha.1

/-! ## The error bits (R31, R32) -/

/-- An error bit of the state after the host's move stays through the block's step, and reset clears both. -/
theorem blockEffect_errBits {m t : State} (h : BlockEffect m t) :
    (m.rst = true ∧ t.errOp = false ∧ t.errRange = false) ∨
    (m.rst = false ∧ (m.errOp = true → t.errOp = true) ∧ (m.errRange = true → t.errRange = true)) := by
  cases h with
  | reset hr => exact .inl ⟨hr, rfl, rfl⟩
  | hold hr => exact .inr ⟨hr, id, id⟩
  | run ha => exact .inr ⟨ha.rst_off, id, id⟩
  | respond ha => exact .inr ⟨ha.rst_off, id, id⟩
  | error ha hd k => exact .inr ⟨ha.rst_off, by simp +contextual, by simp +contextual⟩
  | byte ht => exact .inr ⟨ht.rst_off, by simp, by simp⟩

/-- Settles O24: the host's move keeps the error bits, and the block clears them only by reset. -/
theorem errorBitsAreSticky : Obligations.ErrorBitsAreSticky := by
  intro s m t hm h
  obtain ⟨-, -, -, -, -, -, -, -, heo, her, -⟩ := hostMove_frame hm
  rw [← heo, ← her]
  rcases blockEffect_errBits (blockEffect_of_step hm h) with ⟨hr, hop, hrange⟩ | ⟨hr, hop, hrange⟩
  · exact ⟨fun _ => .inr hr, fun _ => .inr hr, fun _ => ⟨hop, hrange⟩, by simp, by simp⟩
  · exact ⟨.inl ∘ hop, .inl ∘ hrange, by simp [hr], by simp, by simp⟩

/-! ## DONE (R30) -/

/-- `out_last` outside the last channel of a copy is 0. -/
theorem outLast_eq_false {s : State} (h : s.phase ≠ .pix ∨ s.chan ≠ .b) : s.outLast = false := by
  rcases h with h | h <;> simp [State.outLast, h]

/-- A copy that is not the first of two is the last one of its pixel. -/
theorem lastCopy_of_not_first {e d : Bool} (h : ¬(e = true ∧ d = false)) : (!e || d) = true := by
  cases e
  · rfl
  · simpa using h

/-- The move to the next pixel sets DONE exactly on the last byte. -/
theorem nextPixel_done {s : State} (hp : s.phase = .pix) (hc : s.chan = .b) :
    s.nextPixel.done = (s.done || s.outLast) := by
  rcases nextPixel_cases s with ⟨he, hd, h⟩ | ⟨-, hcol, h⟩ | ⟨-, -, hrow, h⟩ | ⟨he, hcol, hrow, h⟩
  · simp [h, State.outLast, he, hd]
  · simp [h, State.outLast, hcol.ne]
  · simp [h, State.outLast, hrow.ne]
  · simp [h, State.outLast, hp, hc, hcol, hrow, lastCopy_of_not_first he]

/-- The emitter's advance sets DONE exactly on the last byte. -/
@[simp] theorem advance_done (s : State) : s.advance.done = (s.done || s.outLast) := by
  by_cases hp : s.phase = .idle
  · simp [State.advance, hp, outLast_eq_false]
  rcases advance_cases s hp with ⟨hh, _, h⟩ | ⟨hh, -, h⟩ | ⟨-, hc, h⟩ | ⟨-, hc, h⟩ | ⟨hp, hc, h⟩
  · simp [h, outLast_eq_false, hh]
  · simp [h, outLast_eq_false, hh]
  · simp [h, outLast_eq_false, hc]
  · simp [h, outLast_eq_false, hc]
  · rw [h, nextPixel_done hp hc]

@[simp] theorem noResponse_outLast (s : State) : s.noResponse.outLast = s.outLast := rfl
@[simp] theorem transfer_outLast (s : State) (b : Byte) (l : Bool) : (s.transfer b l).outLast = s.outLast := rfl

/-- Settles O35: DONE in each of the ways a step can go on. -/
theorem doneChangesOnlyByRunAndReset : Obligations.DoneChangesOnlyByRunAndReset := by
  intro s m t hm h
  obtain ⟨-, -, -, -, -, -, -, hdone, -⟩ := hostMove_frame hm
  rw [← hdone]
  cases blockEffect_of_step hm h with
  | reset hr => simp [State.Accepts, State.Transfers, hr]
  | hold hr ha ht => simp [hr, ha, ht]
  | run ha e hd => simp [ha, ha.rst_off, ha.not_transfers, hd]
  | respond ha hd w => simp [ha, ha.rst_off, ha.not_transfers, hd]
  | error ha hd k => simp [ha, ha.rst_off, ha.not_transfers, hd]
  | byte ht b hb => simp +contextual [ht, ht.rst_off, ht.not_accepts]

/-! ## The invariant (R26, R30, R36, R171)

The clauses about the emitter's position are kept by the advance alone; the clause about the latch holds only once the
latch is loaded again. So the position's clauses are named, and the invariant is put together after `loadLatch`. -/

/-- The clauses of the invariant about the emitter's position. -/
structure State.PositionInv (s : State) : Prop where
  dupNeedsExpand : s.expand = false → s.dup = false
  idleAtZero : s.phase = .idle → s.hdrI = 0 ∧ s.row = 0 ∧ s.col = 0 ∧ s.dup = false ∧ s.chan = .r
  hdrAtZero : s.phase = .hdr → s.row = 0 ∧ s.col = 0 ∧ s.dup = false ∧ s.chan = .r
  pixAtZero : s.phase = .pix → s.hdrI = 0
  busyNotDone : s.phase ≠ .idle → s.done = false

theorem State.Inv.positionInv {s : State} (h : s.Inv) : s.PositionInv := { h with }

/-- While the emitter presents a pixel, the position's clauses are these three. -/
theorem positionInv_of_pix {s : State} (hp : s.phase = .pix) (hi : s.hdrI = 0) (hd : s.done = false)
    (hx : s.expand = false → s.dup = false) : s.PositionInv where
  dupNeedsExpand := hx
  idleAtZero h := by simp [hp] at h
  hdrAtZero h := by simp [hp] at h
  pixAtZero _ := hi
  busyNotDone _ := hd

/-- The move to the next pixel, or to the end of the stream, keeps the position's clauses. -/
theorem nextPixel_positionInv {s : State} (h : s.PositionInv) (hp : s.phase = .pix) : s.nextPixel.PositionInv := by
  have hi := h.pixAtZero hp
  have hd : s.done = false := h.busyNotDone (by simp [hp])
  rcases nextPixel_cases s with ⟨he, -, hn⟩ | ⟨-, _, hn⟩ | ⟨-, -, _, hn⟩ | ⟨-, -, -, hn⟩
  · rw [hn]; exact positionInv_of_pix hp hi hd (by simp [he])
  · rw [hn]; exact positionInv_of_pix hp hi hd fun _ => rfl
  · rw [hn]; exact positionInv_of_pix hp hi hd fun _ => rfl
  · rw [hn]
    exact
      { dupNeedsExpand := fun _ => rfl
        idleAtZero := fun _ => ⟨hi, rfl, rfl, rfl, rfl⟩
        hdrAtZero := by simp
        pixAtZero := by simp
        busyNotDone := by simp }

/-- The emitter's advance keeps the position's clauses. -/
theorem advance_positionInv {s : State} (h : s.PositionInv) (hp : s.phase ≠ .idle) : s.advance.PositionInv := by
  have hd : s.done = false := h.busyNotDone hp
  rcases advance_cases s hp with ⟨hh, _, ha⟩ | ⟨hh, -, ha⟩ | ⟨hpix, -, ha⟩ | ⟨hpix, -, ha⟩ | ⟨hpix, -, ha⟩
  · rw [ha]
    exact { h with
      idleAtZero := fun hx => absurd hx hp
      pixAtZero := fun hx => by simp [hh] at hx }
  · rw [ha]; exact positionInv_of_pix rfl rfl hd h.dupNeedsExpand
  · rw [ha]; exact positionInv_of_pix hpix (h.pixAtZero hpix) hd h.dupNeedsExpand
  · rw [ha]; exact positionInv_of_pix hpix (h.pixAtZero hpix) hd h.dupNeedsExpand
  · rw [ha]; exact nextPixel_positionInv h hpix

/-- The ROM's entries are the ROM's alone. -/
theorem romRead_congr {s t : State} (h : t.rom = s.rom) (i : BitVec 4) : t.romRead i = s.romRead i := by
  rw [State.romRead, State.romRead, h]

/-- After the latch is loaded it holds the triple of the pixel at the position. -/
theorem loadLatch_pixRgb {s : State} {c : Rgb} (hp : s.phase = .pix) (hc : s.pixelRgb s.col s.row = some c) :
    s.loadLatch.pixRgb = c := by
  simp [State.loadLatch, hp, hc]

@[simp] theorem loadLatch_pixelRgb (s : State) (col : Col) (row : Row) :
    s.loadLatch.pixelRgb col row = s.pixelRgb col row :=
  pixelRgb_congr (loadLatch_img s) (loadLatch_rom s) (loadLatch_bgPolicy s) col row

/-- The emitter's advance with the latch loaded keeps the invariant. -/
theorem advance_loadLatch_inv {s : State} (h : s.Inv) (hp : s.phase ≠ .idle) : s.advance.loadLatch.Inv := by
  have hpos := advance_positionInv h.positionInv hp
  exact
    { imgWf := by simpa using h.imgWf
      romZero := (romRead_congr (by simp) 0).trans h.romZero
      dupNeedsExpand := by simpa using hpos.dupNeedsExpand
      idleAtZero := by simpa using hpos.idleAtZero
      hdrAtZero := by simpa using hpos.hdrAtZero
      pixAtZero := by simpa using hpos.pixAtZero
      busyNotDone := by simpa using hpos.busyNotDone
      errorWordZero := by simpa using h.errorWordZero
      errorRecorded := by simpa using h.errorRecorded
      latchCurrent := fun hx c hc => loadLatch_pixRgb (by simpa using hx) (by simpa using hc) }

theorem noResponse_inv {s : State} (h : s.Inv) : s.noResponse.Inv := { h with }

theorem takeCommand_inv {s : State} (h : s.Inv) : s.takeCommand.Inv := { h with }

theorem transfer_inv {s : State} (h : s.Inv) (b : Byte) (l : Bool) : (s.transfer b l).Inv := { h with }

theorem respond_inv {s : State} (h : s.Inv) (w : Word) : (s.respond w).Inv :=
  { h with
    errorWordZero := by simp
    errorRecorded := by simp }

/-- An error response is the zero word and sets a sticky bit, whatever its kind. -/
theorem raiseErr_inv {s : State} (h : s.Inv) (k : ErrKind) : (s.raiseErr k).Inv := by
  cases k with
  | op => exact { h with errorWordZero := fun _ => rfl, errorRecorded := fun _ => .inl rfl }
  | range => exact { h with errorWordZero := fun _ => rfl, errorRecorded := fun _ => .inr rfl }

/-- RUN starts at the first byte of the header, where every counter is 0. -/
theorem startRun_inv {s : State} (h : s.Inv) (e : Bool) : (s.startRun e).Inv :=
  { h with
    dupNeedsExpand := fun _ => rfl
    idleAtZero := by simp
    hdrAtZero := fun _ => ⟨rfl, rfl, rfl, rfl⟩
    pixAtZero := by simp
    busyNotDone := fun _ => rfl
    latchCurrent := by simp }

/-- Reset meets the invariant from every state whose memories do. -/
theorem resetBlock_inv {s : State} (himg : s.img.wf = true) (hrom : s.romRead 0 = Rgb.black) : s.resetBlock.Inv where
  imgWf := himg
  romZero := hrom
  dupNeedsExpand _ := rfl
  idleAtZero _ := ⟨rfl, rfl, rfl, rfl, rfl⟩
  hdrAtZero := by simp
  pixAtZero := by simp
  busyNotDone _ := rfl
  errorWordZero _ := rfl
  errorRecorded := by simp
  latchCurrent := by simp

/-- A host write falls into no stream, so the latch has no pixel to follow. -/
theorem imgWrite_inv {s : State} (h : s.Inv) (hf : s.inFlight = false) (a : ImgAddr) (v : Byte)
    (rest : List HostMove) : { s with script := rest, img := s.img.write a.val v }.Inv := by
  have hidle : s.phase = .idle := by
    simp only [State.inFlight, State.busy, Bool.or_eq_false_iff, bne_eq_false_iff_eq] at hf
    exact hf.1
  exact { h with
    imgWf := wf_write h.imgWf a.isLt v
    latchCurrent := fun hp => absurd (hidle.symm.trans hp) (by simp) }

/-- Every move of the host keeps the invariant. -/
theorem hostMove_inv {s m : State} (h : s.Inv) (hm : hostMove s = .next m) : m.Inv := by
  rcases hostMove_next hm with ⟨-, rfl⟩ | ⟨_, -, rfl⟩ | ⟨_, _, -, -, rfl⟩ | ⟨_, _, -, -, rfl⟩ | ⟨_, _, -, rfl⟩ |
    ⟨_, _, -, rfl⟩ | ⟨a, v, rest, -, hf, rfl⟩
  · exact h
  · exact { h with }
  · exact h
  · exact { h with }
  · exact { h with }
  · exact { h with }
  · exact imgWrite_inv h hf a v rest

/-- Every effect of the block keeps the invariant. -/
theorem blockEffect_inv {m t : State} (h : m.Inv) (hb : BlockEffect m t) : t.Inv := by
  have hacc : m.accepted.Inv := takeCommand_inv (noResponse_inv h)
  cases hb with
  | reset => exact resetBlock_inv h.imgWf h.romZero
  | hold => exact noResponse_inv h
  | run ha e => exact startRun_inv hacc e
  | respond ha hd w => exact respond_inv hacc w
  | error ha hd k => exact raiseErr_inv hacc k
  | byte ht b hb => exact advance_loadLatch_inv (transfer_inv (noResponse_inv h) b _) ht.1

/-- Settles O43: the host's move keeps the invariant, and so does what the block does after it. -/
theorem stepKeepsInvariant : Obligations.StepKeepsInvariant := by
  intro s t hs h
  obtain ⟨m, hm, -⟩ := step_next h
  exact blockEffect_inv (hostMove_inv hs hm) (blockEffect_of_step hm h)

/-! ## Reset (R38) -/

/-- The ROM after reset holds the palette (R27, R94). -/
theorem reset_romRead (i : BitVec 4) : State.reset.romRead i = Config.palette i.toFin := by
  obtain ⟨i⟩ := i
  fin_cases i <;> rfl

theorem palette_zero : Config.palette 0 = Rgb.black := if_pos rfl

/-- Settles O40: the values are those State.reset gives, and the ROM's sixteen entries are the palette's. -/
theorem resetValuesHold : Obligations.ResetValuesHold := by
  refine ⟨rfl, rfl, rfl, rfl, rfl, rfl, rfl, rfl, rfl, rfl, rfl, rfl, rfl, rfl, rfl, rfl, rfl, ?_, ?_, ?_⟩
  · exact reset_romRead
  · exact palette_zero
  · exact fun s => ⟨resetBlock_rom s, fun a => by rw [resetBlock_img]⟩

/-- Settles O42: reset of the reset state is that state, its IMG is empty and its ROM entry 0 black. -/
theorem resetMeetsInvariant : Obligations.ResetMeetsInvariant :=
  have hrom : State.reset.romRead 0 = Rgb.black := (reset_romRead 0).trans palette_zero
  resetBlock_inv (s := State.reset) rfl hrom

/-! ## ROM and IMG (R27, R57, R193) -/

/-- The block writes neither the ROM nor IMG. -/
theorem blockEffect_memories {m t : State} (h : BlockEffect m t) : t.rom = m.rom ∧ t.img = m.img := by
  cases h with
  | reset => exact ⟨rfl, rfl⟩
  | hold => exact ⟨rfl, rfl⟩
  | run => exact ⟨rfl, rfl⟩
  | respond => exact ⟨rfl, rfl⟩
  | error => simp
  | byte => simp

/-- The host's move writes one byte of IMG, or is no write and leaves IMG. -/
theorem hostMove_img {s m : State} (hm : hostMove s = .next m) :
    (∃ a v rest, s.script = .writeImg a v :: rest ∧ m.img = s.img.write a.val v) ∨
    ((∀ a v rest, s.script ≠ .writeImg a v :: rest) ∧ m.img = s.img) := by
  rcases hostMove_next hm with ⟨hs, rfl⟩ | ⟨_, hs, rfl⟩ | ⟨_, _, hs, -, rfl⟩ | ⟨_, _, hs, -, rfl⟩ |
    ⟨_, _, hs, rfl⟩ | ⟨_, _, hs, rfl⟩ | ⟨a, v, rest, hs, -, rfl⟩
  case inr.inr.inr.inr.inr.inr => exact .inl ⟨a, v, rest, hs, rfl⟩
  all_goals exact .inr ⟨by simp [hs], rfl⟩

/-- Settles O37: the block leaves both memories, so IMG changes by the host's move alone. -/
theorem romFixedImageHostWritten : Obligations.RomFixedImageHostWritten := by
  intro s t hs h
  obtain ⟨m, hm, -⟩ := step_next h
  obtain ⟨hrom, himg⟩ := blockEffect_memories (blockEffect_of_step hm h)
  obtain ⟨-, -, -, -, -, -, -, -, -, -, -, -, -, hmrom, -⟩ := hostMove_frame hm
  refine ⟨hrom.trans hmrom, ?_⟩
  rcases hostMove_img hm with ⟨a, v, rest, hw, hwrite⟩ | ⟨hno, hkeep⟩
  · have hread (b : Nat) : t.img.read b = if b = a.val then v else s.img.read b := by
      rw [himg, hwrite, read_write hs.imgWf]
    refine ⟨fun hno => absurd hw (hno a v rest), fun a' v' rest' hw' => ?_⟩
    obtain ⟨⟨rfl, rfl⟩, rfl⟩ : (a = a' ∧ v = v') ∧ rest = rest' := by simpa using hw.symm.trans hw'
    exact ⟨by simp [hread], fun b hb => by simp [hread, hb]⟩
  · exact ⟨fun _ => himg.trans hkeep, fun a v rest hw => absurd hw (hno a v rest)⟩

/-! ## The hidden latch (R36) -/

/-- The state with another value in `S.PIX_RGB`. -/
def State.withLatch (s : State) (v : Rgb) : State := { s with pixRgb := v }

@[simp] theorem withLatch_phase (s : State) (v : Rgb) : (s.withLatch v).phase = s.phase := rfl
@[simp] theorem withLatch_hdrI (s : State) (v : Rgb) : (s.withLatch v).hdrI = s.hdrI := rfl
@[simp] theorem withLatch_row (s : State) (v : Rgb) : (s.withLatch v).row = s.row := rfl
@[simp] theorem withLatch_col (s : State) (v : Rgb) : (s.withLatch v).col = s.col := rfl
@[simp] theorem withLatch_chan (s : State) (v : Rgb) : (s.withLatch v).chan = s.chan := rfl
@[simp] theorem withLatch_bgPolicy (s : State) (v : Rgb) : (s.withLatch v).bgPolicy = s.bgPolicy := rfl
@[simp] theorem withLatch_rst (s : State) (v : Rgb) : (s.withLatch v).rst = s.rst := rfl
@[simp] theorem withLatch_cmdValid (s : State) (v : Rgb) : (s.withLatch v).cmdValid = s.cmdValid := rfl
@[simp] theorem withLatch_cmdWord (s : State) (v : Rgb) : (s.withLatch v).cmdWord = s.cmdWord := rfl
@[simp] theorem withLatch_outReady (s : State) (v : Rgb) : (s.withLatch v).outReady = s.outReady := rfl
@[simp] theorem withLatch_script (s : State) (v : Rgb) : (s.withLatch v).script = s.script := rfl
@[simp] theorem withLatch_inFlight (s : State) (v : Rgb) : (s.withLatch v).inFlight = s.inFlight := rfl
@[simp] theorem withLatch_pixel (s : State) (v : Rgb) (col : Col) (row : Row) :
    (s.withLatch v).pixel col row = s.pixel col row := rfl
@[simp] theorem withLatch_pixelRgb (s : State) (v : Rgb) (col : Col) (row : Row) :
    (s.withLatch v).pixelRgb col row = s.pixelRgb col row := rfl
@[simp] theorem withLatch_streamByte (s : State) (v : Rgb) : (s.withLatch v).streamByte = s.streamByte := rfl
@[simp] theorem withLatch_outLast (s : State) (v : Rgb) : (s.withLatch v).outLast = s.outLast := rfl

/-- Two outcomes of a step that differ in `S.PIX_RGB` of the next state at most. -/
inductive SameButLatch : Host.Outcome State Fault Refusal → Host.Outcome State Fault Refusal → Prop
  | next (t : State) (v : Rgb) : SameButLatch (.next t) (.next (t.withLatch v))
  | fault (f : Fault) : SameButLatch (.fault f) (.fault f)
  | refused (r : Refusal) : SameButLatch (.refused r) (.refused r)

theorem SameButLatch.of_next {t : State} {o : Host.Outcome State Fault Refusal} (h : SameButLatch (.next t) o) :
    ∃ v, o = .next (t.withLatch v) := by
  cases h
  exact ⟨_, rfl⟩

theorem SameButLatch.of_fault {f : Fault} {o : Host.Outcome State Fault Refusal} (h : SameButLatch (.fault f) o) :
    o = .fault f := by
  cases h
  rfl

theorem SameButLatch.of_refused {r : Refusal} {o : Host.Outcome State Fault Refusal}
    (h : SameButLatch (.refused r) o) : o = .refused r := by
  cases h
  rfl

/-- Choices by one condition are alike where their branches are. -/
theorem SameButLatch.choice {c : Prop} {d d' : Decidable c} {o₁ o₂ o₁' o₂' : Host.Outcome State Fault Refusal}
    (h₁ : SameButLatch o₁ o₁') (h₂ : SameButLatch o₂ o₂') :
    SameButLatch (@ite _ c d o₁ o₂) (@ite _ c d' o₁' o₂') := by
  by_cases hc : c
  · rwa [if_pos hc, if_pos hc]
  · rwa [if_neg hc, if_neg hc]

theorem hostMove_withLatch (s : State) (v : Rgb) : SameButLatch (hostMove s) (hostMove (s.withLatch v)) := by
  simp only [hostMove, withLatch_script, withLatch_cmdValid, withLatch_inFlight]
  split
  · exact .next _ v
  · exact .next _ v
  · exact .choice (.next _ v) (.next _ v)
  · exact .next _ v
  · exact .next _ v
  · exact .choice (.refused _) (.next _ v)

theorem nextPixel_withLatch (s : State) (v : Rgb) : (s.withLatch v).nextPixel = s.nextPixel.withLatch v := by
  rcases nextPixel_cases s with ⟨he, hd, -⟩ | ⟨he, hc, -⟩ | ⟨he, hc, hr, -⟩ | ⟨he, hc, hr, -⟩
  · simp [State.nextPixel, State.withLatch, he, hd]
  · simp [State.nextPixel, State.withLatch, he, hc]
  · simp [State.nextPixel, State.withLatch, he, hc, hr]
  · simp [State.nextPixel, State.withLatch, he, hc, hr]

theorem advance_withLatch (s : State) (v : Rgb) : (s.withLatch v).advance = s.advance.withLatch v := by
  simp only [State.advance, withLatch_phase, withLatch_hdrI, withLatch_chan, nextPixel_withLatch]
  split
  · rfl
  · by_cases hi : s.hdrI.val < 37
    · simp [State.withLatch, hi]
    · simp [State.withLatch, hi]
  · split <;> rfl

theorem loadLatch_withLatch (s : State) (v : Rgb) : ∃ v', (s.withLatch v).loadLatch = s.loadLatch.withLatch v' := by
  simp only [State.loadLatch, withLatch_phase, withLatch_row, withLatch_col, withLatch_pixelRgb]
  split
  · exact ⟨v, rfl⟩
  · exact ⟨v, rfl⟩
  · split
    · exact ⟨v, rfl⟩
    · exact ⟨_, rfl⟩

theorem emitStep_withLatch (s : State) (v : Rgb) : SameButLatch (emitStep s) (emitStep (s.withLatch v)) := by
  simp only [emitStep, withLatch_streamByte, withLatch_outLast]
  split
  · exact .fault _
  · next b _ =>
    have hadv : ((s.withLatch v).transfer b s.outLast).advance = (s.transfer b s.outLast).advance.withLatch v :=
      advance_withLatch (s.transfer b s.outLast) v
    obtain ⟨v', hload⟩ := loadLatch_withLatch (s.transfer b s.outLast).advance v
    rw [hadv, hload]
    exact .next _ v'

theorem exec_withLatch (i : Instr) (s : State) (v : Rgb) : SameButLatch (exec i s) (exec i (s.withLatch v)) := by
  cases i with
  | lookup idx => exact .next _ v
  | addr col row =>
    simp only [exec, execAddr]
    split
    · exact .next _ v
    · exact .next _ v
  | sel byte pair => exact .next _ v
  | resolve sel attrA attrB bg =>
    simp only [exec, execResolve, withLatch_bgPolicy]
    split
    · exact .fault _
    · exact .next _ v
  | pixel col row =>
    simp only [exec, execPixel, withLatch_pixel]
    split
    · exact .next _ v
    · split
      · exact .fault _
      · exact .next _ v
  | run e => exact .next _ v

theorem acceptCommand_withLatch (s : State) (v : Rgb) :
    SameButLatch (acceptCommand s) (acceptCommand (s.withLatch v)) := by
  simp only [acceptCommand, withLatch_cmdWord]
  split
  · exact .next _ v
  · exact exec_withLatch _ s.takeCommand v

theorem blockStep_withLatch (s : State) (v : Rgb) : SameButLatch (blockStep s) (blockStep (s.withLatch v)) := by
  have hwait : SameButLatch (.next s.noResponse) (.next (s.withLatch v).noResponse) := .next _ v
  have hemit : SameButLatch (emitStep s.noResponse) (emitStep (s.withLatch v).noResponse) := emitStep_withLatch _ v
  simp only [blockStep, withLatch_rst, withLatch_phase, withLatch_cmdValid, withLatch_outReady]
  refine .choice (.next _ Rgb.black) ?_
  split
  · exact .choice (acceptCommand_withLatch _ v) hwait
  · exact .choice hemit hwait
  · exact .choice hemit hwait

theorem step_withLatch (s : State) (v : Rgb) : SameButLatch (step s) (step (s.withLatch v)) := by
  have hmove := hostMove_withLatch s v
  simp only [step, hostThenBlock]
  generalize hostMove s = o, hostMove (s.withLatch v) = o' at hmove
  cases hmove with
  | next m v' => exact blockStep_withLatch m v'
  | fault f => exact .fault f
  | refused r => exact .refused r

/-- Settles O45: each part of the step carries a difference in the latch alone on to the next state, and the output
ports do not read the latch. -/
theorem hiddenLatchHasNoInfluence : Obligations.HiddenLatchHasNoInfluence := by
  intro s v
  have h := step_withLatch s v
  refine ⟨fun t ht => ?_, fun f hf => ?_, fun r hr => ?_, rfl, rfl, rfl, rfl, rfl, rfl, rfl, rfl, rfl⟩
  · rw [ht] at h
    exact h.of_next
  · rw [hf] at h
    exact h.of_fault
  · rw [hr] at h
    exact h.of_refused

/-! ## The emitter against the stream (R143, R148, R151) -/

/-- Where every block has `n` items, item `j` of block `i` stands at `i * n + j`. -/
theorem getElem?_flatMap_of_length {α β : Type} {f : α → List β} {n : Nat} (hf : ∀ a, (f a).length = n)
    {j : Nat} (hj : j < n) (l : List α) (i : Nat) :
    (l.flatMap f)[i * n + j]? = l[i]?.bind fun a => (f a)[j]? := by
  induction l generalizing i with
  | nil => simp
  | cons a l ih =>
    rw [List.flatMap_cons]
    cases i with
    | zero => rw [Nat.zero_mul, Nat.zero_add, List.getElem?_append_left (by rwa [hf])]; rfl
    | succ i =>
      have hsub : (i + 1) * n + j - n = i * n + j := by rw [Nat.succ_mul]; omega
      rw [List.getElem?_append_right (by rw [hf, Nat.succ_mul]; omega), hf, hsub, ih, List.getElem?_cons_succ]

/-- Copies of a pixel in a row of the stream (R142). -/
def copies (e : Bool) : Nat := if e then 2 else 1

theorem outW_eq (e : Bool) : outW e = 160 * copies e := by cases e <;> rfl

theorem pixelBytes_length (e : Bool) (t : Rgb) : (pixelBytes e t).length = 3 * copies e := by cases e <;> rfl

theorem rowBytes_length (px : Grid) (e : Bool) (row : Row) : (rowBytes px e row).length = 3 * outW e := by
  simp only [rowBytes, List.length_flatMap, pixelBytes_length, List.map_const', List.sum_replicate_nat,
    List.length_finRange, outW_eq]
  ring

theorem chanIndex_lt (c : Chan) : chanIndex c < 3 := by cases c <;> decide

/-- A copy that the flag allows is one of the pixel's copies. -/
theorem dup_lt_copies {e dup : Bool} (h : e = false → dup = false) : dup.toNat < copies e := by
  cases e
  · simp [h rfl, copies]
  · cases dup <;> decide

/-- On the last copy of a pixel `S.dup` equals the flag. -/
theorem dup_eq_of_lastCopy {e dup : Bool} (h : e = false → dup = false) (hl : ¬(e = true ∧ dup = false)) :
    dup = e := by
  cases e
  · exact h rfl
  · simpa using hl

theorem outColumn_eq {e dup : Bool} (h : e = false → dup = false) (col : Col) :
    outColumn e col dup = col.val * copies e + dup.toNat := by
  cases e
  · simp [outColumn, copies, h rfl]
  · simp [outColumn, copies, Nat.mul_comm]

/-- A copy's channels stand in order in the bytes of its pixel (R145). -/
theorem getElem?_pixelBytes {e dup : Bool} (h : e = false → dup = false) (t : Rgb) (c : Chan) :
    (pixelBytes e t)[3 * dup.toNat + chanIndex c]? = some (channel t c) := by
  cases e
  · rw [h rfl]; cases c <;> rfl
  · cases dup <;> cases c <;> rfl

theorem getElem?_rowBytes {e dup : Bool} (h : e = false → dup = false) (px : Grid) (row : Row) (col : Col)
    (c : Chan) : (rowBytes px e row)[3 * outColumn e col dup + chanIndex c]? = some (channel (px col row) c) := by
  have hc := chanIndex_lt c
  have hd := dup_lt_copies h
  have hpos : 3 * outColumn e col dup + chanIndex c = col.val * (3 * copies e) + (3 * dup.toNat + chanIndex c) := by
    rw [outColumn_eq h]; ring
  rw [hpos, rowBytes, getElem?_flatMap_of_length (fun _ => pixelBytes_length e _) (by omega)]
  simp [getElem?_pixelBytes h]

theorem outColumn_lt {e dup : Bool} (h : e = false → dup = false) (col : Col) : outColumn e col dup < outW e := by
  have hcol := col.isLt
  cases e
  · simp [outColumn, outW]
  · have := dup.toNat_le
    simp only [outColumn, outW, if_true]
    omega

theorem getElem?_body {e dup : Bool} (h : e = false → dup = false) (px : Grid) (row : Row) (col : Col) (c : Chan) :
    (body px e)[3 * (row.val * outW e + outColumn e col dup) + chanIndex c]? = some (channel (px col row) c) := by
  have hc := chanIndex_lt c
  have hcol := outColumn_lt h col
  have hpos : 3 * (row.val * outW e + outColumn e col dup) + chanIndex c =
      row.val * (3 * outW e) + (3 * outColumn e col dup + chanIndex c) := by ring
  rw [hpos, body, getElem?_flatMap_of_length (rowBytes_length px e) (by omega)]
  simp [getElem?_rowBytes h]

/-- The byte of a channel of a copy of a pixel stands at its number in the stream (R148). -/
theorem getElem?_stream_byteNumber {e dup : Bool} (h : e = false → dup = false) (px : Grid) (row : Row) (col : Col)
    (c : Chan) : (stream px e)[byteNumber e row col dup c]? = some (channel (px col row) c) := by
  rw [stream, List.getElem?_append_right (by rw [header_length, byteNumber]; omega), header_length, byteNumber,
    Nat.add_assoc, Nat.add_sub_cancel_left, getElem?_body h]

theorem getElem?_stream_header (px : Grid) (e : Bool) (i : HdrIndex) :
    (stream px e)[i.val]? = some (headerByte e i) := by
  have hi : i.val < (header e).length := by rw [header_length]; exact i.isLt
  rw [stream, List.getElem?_append_left hi, List.getElem?_eq_getElem hi, headerByte]

theorem position_of_hdr {s : State} (hp : s.phase = .hdr) : s.position = some s.hdrI.val := by
  simp [State.position, hp]

theorem position_of_pix {s : State} (hp : s.phase = .pix) :
    s.position = some (byteNumber s.expand s.row s.col s.dup s.chan) := by
  simp [State.position, hp]

/-- The emitter has a position exactly while a stream is in progress (R24). -/
theorem position_eq_some {s : State} {k : Nat} :
    s.position = some k ↔
      (s.phase = .hdr ∧ k = s.hdrI.val) ∨
      (s.phase = .pix ∧ k = byteNumber s.expand s.row s.col s.dup s.chan) := by
  cases hp : s.phase <;> simp [State.position, hp, eq_comm]

theorem phase_ne_idle_of_position {s : State} {k : Nat} (hk : s.position = some k) : s.phase ≠ .idle := by
  rcases position_eq_some.1 hk with ⟨hp, -⟩ | ⟨hp, -⟩ <;> simp [hp]

/-- The byte the emitter presents is the stream's at its position (R24, R151). -/
theorem streamByte_eq_stream {s : State} {px : Grid} {k : Nat} (hs : s.Inv) (hd : s.Decodes px)
    (hk : s.position = some k) : ∃ b, s.streamByte = some b ∧ (stream px s.expand)[k]? = some b := by
  rcases position_eq_some.1 hk with ⟨hp, rfl⟩ | ⟨hp, rfl⟩
  · exact ⟨_, by simp [State.streamByte, hp], getElem?_stream_header px _ _⟩
  · exact ⟨_, by simp [State.streamByte, hp, hd s.col s.row],
      getElem?_stream_byteNumber hs.dupNeedsExpand px _ _ _⟩

/-- The first copy of an expanded pixel is followed by the second (R151). -/
theorem byteNumber_nextCopy (row : Row) (col : Col) :
    byteNumber true row col true .r = byteNumber true row col false .b + 1 := by
  simp only [byteNumber, outColumn, if_true, Bool.toNat_true, Bool.toNat_false, chanIndex]
  omega

/-- The last copy of a pixel is followed by the next column (R151). -/
theorem byteNumber_nextCol (e : Bool) (row : Row) {col col' : Col} (hc : col'.val = col.val + 1) :
    byteNumber e row col' false .r = byteNumber e row col e .b + 1 := by
  cases e
  · simp [byteNumber, outColumn, outW, chanIndex, hc]; omega
  · simp [byteNumber, outColumn, outW, chanIndex, hc]; omega

/-- The last copy of a row's last pixel is followed by the next row (R151). -/
theorem byteNumber_nextRow (e : Bool) {row row' : Row} {col : Col} (hc : col.val = 159)
    (hr : row'.val = row.val + 1) : byteNumber e row' 0 false .r = byteNumber e row col e .b + 1 := by
  cases e
  · simp [byteNumber, outColumn, outW, chanIndex, hc, hr]; omega
  · simp [byteNumber, outColumn, outW, chanIndex, hc, hr]; omega

/-- The last channel of the last copy of the last pixel is the stream's last byte (R149, R152). -/
theorem byteNumber_last (e : Bool) {row : Row} {col : Col} (hc : col.val = 159) (hr : row.val = 199) :
    byteNumber e row col e .b + 1 = streamLength e := by
  cases e
  · simp [byteNumber, outColumn, outW, streamLength, chanIndex, hc, hr]
  · simp [byteNumber, outColumn, outW, streamLength, chanIndex, hc, hr]

theorem byteNumber_lt {e dup : Bool} (h : e = false → dup = false) (row : Row) (col : Col) (c : Chan) :
    byteNumber e row col dup c < streamLength e := by
  have hrow := row.isLt
  have hcol := outColumn_lt h col
  have hc := chanIndex_lt c
  have hrows : row.val * outW e ≤ 199 * outW e := Nat.mul_le_mul_right _ (by omega)
  simp only [byteNumber, streamLength]
  omega

/-- The emitter's position lies in the stream. -/
theorem position_lt {s : State} {k : Nat} (h : s.PositionInv) (hk : s.position = some k) :
    k < streamLength s.expand := by
  rcases position_eq_some.1 hk with ⟨-, rfl⟩ | ⟨-, rfl⟩
  · have := s.hdrI.isLt
    simp only [streamLength]
    omega
  · exact byteNumber_lt h.dupNeedsExpand _ _ _

/-- The last channel of a copy is followed by the next number, or it was the stream's last byte. -/
theorem nextPixel_position {s : State} (h : s.PositionInv) (hp : s.phase = .pix) :
    s.nextPixel.position = some (byteNumber s.expand s.row s.col s.dup .b + 1) ∨
    (byteNumber s.expand s.row s.col s.dup .b + 1 = streamLength s.expand ∧ s.nextPixel.phase = .idle ∧
      s.nextPixel.done = true) := by
  have hlast (he : ¬(s.expand = true ∧ s.dup = false)) : s.dup = s.expand :=
    dup_eq_of_lastCopy h.dupNeedsExpand he
  rcases nextPixel_cases s with ⟨he, hd, hn⟩ | ⟨he, hcol, hn⟩ | ⟨he, hcol, hrow, hn⟩ | ⟨he, hcol, hrow, hn⟩
  · left
    rw [hn, he, hd, ← byteNumber_nextCopy]
    simp [State.position, hp]
  · left
    rw [hn, hlast he, ← byteNumber_nextCol (col' := ⟨s.col.val + 1, by omega⟩) _ _ rfl]
    simp [State.position, hp]
  · left
    rw [hn, hlast he, ← byteNumber_nextRow (row' := ⟨s.row.val + 1, by omega⟩) _ hcol rfl]
    simp [State.position, hp]
  · right
    rw [hn, hlast he]
    exact ⟨byteNumber_last _ hcol hrow, rfl, rfl⟩

/-- The advance moves the position by one, or takes the stream's last byte and ends the run (R24, R151, R153). -/
theorem advance_position {s : State} {k : Nat} (h : s.PositionInv) (hk : s.position = some k) :
    s.advance.position = some (k + 1) ∨
    (k + 1 = streamLength s.expand ∧ s.advance.phase = .idle ∧ s.advance.done = true) := by
  rcases advance_cases s (phase_ne_idle_of_position hk) with
    ⟨hh, _, ha⟩ | ⟨hh, h37, ha⟩ | ⟨hp, hc, ha⟩ | ⟨hp, hc, ha⟩ | ⟨hp, hc, ha⟩
  · left
    obtain rfl : s.hdrI.val = k := by simpa [position_of_hdr hh] using hk
    rw [ha]
    exact position_of_hdr hh
  · left
    obtain ⟨hrow, hcol, hdup, hchan⟩ := h.hdrAtZero hh
    obtain rfl : s.hdrI.val = k := by simpa [position_of_hdr hh] using hk
    simp [ha, h37, State.position, hrow, hcol, hdup, hchan, byteNumber, outColumn, chanIndex]
  all_goals obtain rfl : byteNumber s.expand s.row s.col s.dup s.chan = k := by simpa [position_of_pix hp] using hk
  · left
    simp [ha, hp, hc, State.position, byteNumber, chanIndex]
  · left
    simp [ha, hp, hc, State.position, byteNumber, chanIndex]
  · rw [ha, hc]
    exact nextPixel_position h hp

@[simp] theorem loadLatch_position (s : State) : s.loadLatch.position = s.position := by
  simp [State.position]

/-- What becomes of the position in the step that transfers byte `k`, with `out_last` exactly on the last byte (R152). -/
theorem advance_from_position {s : State} {k : Nat} (h : s.PositionInv) (hk : s.position = some k) :
    s.outLast = (k + 1 == streamLength s.expand) ∧
    ((k + 1 < streamLength s.expand ∧ s.advance.position = some (k + 1) ∧ s.advance.done = false) ∨
      (k + 1 = streamLength s.expand ∧ s.advance.phase = .idle ∧ s.advance.done = true ∧ s.advance.hdrI = 0 ∧
        s.advance.row = 0 ∧ s.advance.col = 0 ∧ s.advance.dup = false ∧ s.advance.chan = .r)) := by
  have hp := phase_ne_idle_of_position hk
  have hadv := advance_positionInv h hp
  have hdone : s.advance.done = s.outLast := by simp [h.busyNotDone hp]
  rcases advance_position h hk with hpos | ⟨hlast, hidle, hd⟩
  · have hlt : k + 1 < streamLength s.expand := by simpa using position_lt hadv hpos
    have hd := hadv.busyNotDone (phase_ne_idle_of_position hpos)
    exact ⟨by rw [← hdone, hd, beq_eq_false_iff_ne.2 hlt.ne], .inl ⟨hlt, hpos, hd⟩⟩
  · exact ⟨by rw [← hdone, hd, beq_iff_eq.2 hlast], .inr ⟨hlast, hidle, hd, hadv.idleAtZero hidle⟩⟩

/-- A step that transfers a byte is the emitter's (R150). -/
theorem step_of_transfers {s m : State} (hm : hostMove s = .next m) (ht : m.Transfers) :
    step s = emitStep m.noResponse := by
  obtain ⟨hp, hr, ho⟩ := ht
  rw [step_of_hostMove hm]
  cases hph : m.phase with
  | idle => exact absurd hph hp
  | hdr => simp [blockStep, hr, hph, ho]
  | pix => simp [blockStep, hr, hph, ho]

/-- Settles O32: the byte presented is the stream's at the position, and the advance moves to the next number or ends
the run. -/
theorem eachByteIsTheStreamsNext : Obligations.EachByteIsTheStreamsNext := by
  intro s m px k hm ht hi hd hk
  obtain ⟨b, hbyte, hb⟩ := streamByte_eq_stream hi hd hk
  have hstep := (step_of_transfers hm ht).trans (emitStep_of_byte (s := m.noResponse) hbyte)
  have hpos : (m.noResponse.transfer b m.outLast).PositionInv := { hi.positionInv with }
  obtain ⟨hlast, hadv⟩ := advance_from_position hpos (k := k) hk
  have hlog : m.outLast = (k + 1 == streamLength m.expand) := hlast
  exact ⟨_, hstep, ⟨b, hb, by simp [hlog]⟩, by simpa using hadv, by simp⟩

end Sys2Proof.Machine
end

section
/-! PROOFS. The family of 20_memory.md: the only refusal is a host write to IMG in flight, the block reads IMG inside the
planes alone, and so the marker bytes have no influence. -/

namespace Sys2Proof.Machine

/-! ## The refusal of a write in flight (R57, U3) -/

/-- Every operation of the block has a meaning. -/
theorem exec_ne_refused (i : Instr) (s : State) (r : Refusal) : exec i s ≠ .refused r := by
  cases i with
  | lookup idx => simp [exec, execLookup]
  | addr col row => cases hg : gridPos col row <;> simp [exec, execAddr, hg]
  | sel byte pair => simp [exec, execSel]
  | resolve sel attrA attrB bg =>
    cases hi : resolve s.bgPolicy sel attrA attrB bg <;> simp [exec, execResolve, hi]
  | pixel col row =>
    cases hg : gridPos col row with
    | none => simp [exec, execPixel, hg]
    | some pos => cases hp : s.pixel pos.1 pos.2 <;> simp [exec, execPixel, hg, hp]
  | run e => simp [exec, execRun]

theorem acceptCommand_ne_refused (s : State) (r : Refusal) : acceptCommand s ≠ .refused r := by
  cases hd : decode s.cmdWord with
  | error e => simp [acceptCommand, hd]
  | ok i => simp [acceptCommand, hd, exec_ne_refused]

theorem emitStep_ne_refused (s : State) (r : Refusal) : emitStep s ≠ .refused r := by
  cases hb : s.streamByte <;> simp [emitStep, hb]

/-- Only the host is refused, never the block. -/
theorem blockStep_ne_refused (s : State) (r : Refusal) : blockStep s ≠ .refused r := by
  unfold blockStep
  split
  · simp
  · split
    · split
      · exact acceptCommand_ne_refused _ r
      · simp
    all_goals
      split
      · exact emitStep_ne_refused _ r
      · simp

/-- A step is refused exactly where the host's move is. -/
theorem step_refused {s : State} {r : Refusal} : step s = .refused r ↔ hostMove s = .refused r := by
  cases hm : hostMove s with
  | next m => simp [step_of_hostMove hm, blockStep_ne_refused]
  | fault f => simp [step, hostThenBlock, hm]
  | refused r' => simp [step, hostThenBlock, hm]

theorem inFlight_iff {s : State} : s.inFlight = true ↔ s.phase ≠ .idle ∨ s.cmdValid = true := by
  simp [State.inFlight, State.busy]

/-- The host's move is refused exactly where it writes IMG in flight. -/
theorem hostMove_refused {s : State} {r : Refusal} :
    hostMove s = .refused r ↔
      r = .imgWriteInFlight ∧ (∃ a v rest, s.script = .writeImg a v :: rest) ∧ s.inFlight = true := by
  unfold hostMove
  split
  case h_3 hs => split_ifs <;> simp [hs]
  case h_6 hs => split_ifs with hf <;> simp [hs, hf, eq_comm]
  all_goals
    rename_i hs
    simp [hs]

/-- Settles O26: the block refuses nothing, so the step is refused where the host's move is. -/
theorem onlyImageWriteInFlightRefused : Obligations.OnlyImageWriteInFlightRefused := by
  intro s r
  rw [step_refused, hostMove_refused, inFlight_iff]

/-! ## The addresses of the planes (R52, R54, R102, R103) -/

/-- The bitmap offset fits its 13 bits and its plane. -/
theorem bmOff_le (c : Col) (r : Row) : (bmOff c r).toNat ≤ 7999 := by
  have hc := c.isLt
  have hr := r.isLt
  rw [bmOff, BitVec.toNat_ofNat]
  exact (Nat.mod_le _ _).trans (by omega)

/-- The offset into planes A and B fits its 10 bits and the planes. -/
theorem attrOff_le (c : Col) (r : Row) : (attrOff c r).toNat ≤ 999 := by
  have hc := c.isLt
  have hr := r.isLt
  rw [attrOff, BitVec.toNat_ofNat]
  exact (Nat.mod_le _ _).trans (by omega)

/-- The four addresses of a pixel with the planes' bases written out (R52). -/
theorem pixelAddrs_eq (c : Col) (r : Row) : pixelAddrs c r =
    [2 + (bmOff c r).toNat, 8002 + (attrOff c r).toNat, 9002 + (attrOff c r).toNat, 10002] := rfl

/-- A pixel's addresses lie in IMG and past the marker bytes. -/
theorem pixelAddrs_bounds {c : Col} {r : Row} {a : Nat} (ha : a ∈ pixelAddrs c r) : 2 ≤ a ∧ a ≤ 10002 := by
  have hbm := bmOff_le c r
  have hattr := attrOff_le c r
  simp only [pixelAddrs_eq, List.mem_cons, List.not_mem_nil, or_false] at ha
  omega

/-- A step reads nothing, or one pixel's bytes. -/
theorem imgReads_cases (s : State) : s.imgReads = [] ∨ ∃ c r, s.imgReads = pixelAddrs c r := by
  unfold State.imgReads
  split
  · exact .inl rfl
  · split
    · exact .inr ⟨_, _, rfl⟩
    · exact .inl rfl
    · split
      · split
        · split
          · exact .inr ⟨_, _, rfl⟩
          · exact .inl rfl
        all_goals exact .inl rfl
      · exact .inl rfl

/-- Settles O38: the offsets fit their planes, and what a step reads are one pixel's addresses. -/
theorem readsStayInsideThePlanes : Obligations.ReadsStayInsideThePlanes := by
  refine ⟨fun c r => ⟨pixelAddrs_eq c r, ?_⟩, fun s a ha => ?_⟩
  · have hbm := bmOff_le c r
    have hattr := attrOff_le c r
    omega
  · rcases imgReads_cases s with h | ⟨c, r, h⟩
    · simp [h] at ha
    · exact pixelAddrs_bounds (h ▸ ha)

/-! ## The marker bytes (R53)

With another image in its place a step goes the same way and keeps that image, as long as the two images read alike past
the marker bytes; so the steps are compared by an equation, `outcomeWithImg`. -/

/-- Two images that read alike but for IMG bytes 0 and 1. -/
def SameButMarkers (m n : Memory) : Prop := ∀ a, 2 ≤ a → m.read a = n.read a

/-- A write keeps two images alike but for the marker bytes. -/
theorem SameButMarkers.write {m n : Memory} (h : SameButMarkers m n) (hm : m.wf = true) (hn : n.wf = true)
    (a : Nat) (v : Byte) : SameButMarkers (m.write a v) (n.write a v) := fun b hb => by
  rw [read_write hm, read_write hn, h b hb]

/-- The state with another image. -/
def State.withImg (s : State) (n : Memory) : State := { s with img := n }

@[simp] theorem withImg_phase (s : State) (n : Memory) : (s.withImg n).phase = s.phase := rfl
@[simp] theorem withImg_row (s : State) (n : Memory) : (s.withImg n).row = s.row := rfl
@[simp] theorem withImg_col (s : State) (n : Memory) : (s.withImg n).col = s.col := rfl
@[simp] theorem withImg_chan (s : State) (n : Memory) : (s.withImg n).chan = s.chan := rfl
@[simp] theorem withImg_bgPolicy (s : State) (n : Memory) : (s.withImg n).bgPolicy = s.bgPolicy := rfl
@[simp] theorem withImg_rst (s : State) (n : Memory) : (s.withImg n).rst = s.rst := rfl
@[simp] theorem withImg_cmdValid (s : State) (n : Memory) : (s.withImg n).cmdValid = s.cmdValid := rfl
@[simp] theorem withImg_cmdWord (s : State) (n : Memory) : (s.withImg n).cmdWord = s.cmdWord := rfl
@[simp] theorem withImg_outReady (s : State) (n : Memory) : (s.withImg n).outReady = s.outReady := rfl
@[simp] theorem withImg_script (s : State) (n : Memory) : (s.withImg n).script = s.script := rfl
@[simp] theorem withImg_img (s : State) (n : Memory) : (s.withImg n).img = n := rfl
@[simp] theorem withImg_inFlight (s : State) (n : Memory) : (s.withImg n).inFlight = s.inFlight := rfl
@[simp] theorem withImg_outLast (s : State) (n : Memory) : (s.withImg n).outLast = s.outLast := rfl

/-- The outcome with another image in the next state. -/
def outcomeWithImg (n : Memory) : Host.Outcome State Fault Refusal → Host.Outcome State Fault Refusal
  | .next t => .next (t.withImg n)
  | .fault f => .fault f
  | .refused r => .refused r

@[simp] theorem outcomeWithImg_next (n : Memory) (t : State) : outcomeWithImg n (.next t) = .next (t.withImg n) := rfl
@[simp] theorem outcomeWithImg_fault (n : Memory) (f : Fault) : outcomeWithImg n (.fault f) = .fault f := rfl
@[simp] theorem outcomeWithImg_refused (n : Memory) (r : Refusal) : outcomeWithImg n (.refused r) = .refused r := rfl

/-- A choice by one condition carries the other image through where its branches do. -/
theorem ite_eq_outcomeWithImg {n : Memory} {c : Prop} {d d' : Decidable c}
    {o₁ o₂ o₁' o₂' : Host.Outcome State Fault Refusal} (h₁ : o₁' = outcomeWithImg n o₁)
    (h₂ : o₂' = outcomeWithImg n o₂) :
    @ite _ c d' o₁' o₂' = outcomeWithImg n (@ite _ c d o₁ o₂) := by
  by_cases hc : c
  · rwa [if_pos hc, if_pos hc]
  · rwa [if_neg hc, if_neg hc]

/-- The pixel function reads IMG at the pixel's four addresses and nowhere else (R128, R131). -/
theorem pixel_withImg_of_reads {s : State} {n : Memory} {c : Col} {r : Row}
    (h : ∀ a ∈ pixelAddrs c r, n.read a = s.img.read a) : (s.withImg n).pixel c r = s.pixel c r := by
  obtain ⟨hbm, ha, hb, hbg⟩ : n.read (bmBase + (bmOff c r).toNat) = s.img.read (bmBase + (bmOff c r).toNat) ∧
      n.read (aBase + (attrOff c r).toNat) = s.img.read (aBase + (attrOff c r).toNat) ∧
      n.read (bBase + (attrOff c r).toNat) = s.img.read (bBase + (attrOff c r).toNat) ∧
      n.read bgAddr = s.img.read bgAddr := by simpa [pixelAddrs] using h
  have hrom (i : BitVec 4) : (s.withImg n).romRead i = s.romRead i := rfl
  simp only [State.pixel, State.pixelIdx, State.pixelSel, withImg_img, withImg_bgPolicy, hrom, hbm, ha, hb, hbg]

/-- The position's advance does not look at IMG. -/
theorem nextPixel_withImg (s : State) (n : Memory) : (s.withImg n).nextPixel = s.nextPixel.withImg n := by
  simp only [State.nextPixel, apply_ite (State.withImg · n), apply_dite (State.withImg · n)]
  rfl

theorem advance_withImg (s : State) (n : Memory) : (s.withImg n).advance = s.advance.withImg n := by
  simp only [State.advance, withImg_phase, withImg_chan, nextPixel_withImg]
  split
  · rfl
  · simp only [apply_dite (State.withImg · n)]
    rfl
  · split <;> rfl

section
variable {s : State} {n : Memory} (h : SameButMarkers s.img n)
include h

theorem pixel_withImg (c : Col) (r : Row) : (s.withImg n).pixel c r = s.pixel c r :=
  pixel_withImg_of_reads fun a ha => (h a (pixelAddrs_bounds ha).1).symm

theorem pixelRgb_withImg (c : Col) (r : Row) : (s.withImg n).pixelRgb c r = s.pixelRgb c r := by
  rw [State.pixelRgb, State.pixelRgb, pixel_withImg h]

theorem streamByte_withImg : (s.withImg n).streamByte = s.streamByte := by
  simp only [State.streamByte, withImg_phase, withImg_row, withImg_col, pixelRgb_withImg h]
  rfl

theorem loadLatch_withImg : (s.withImg n).loadLatch = s.loadLatch.withImg n := by
  simp only [State.loadLatch, withImg_phase, withImg_row, withImg_col, pixelRgb_withImg h]
  split
  · rfl
  · rfl
  · split <;> rfl

theorem emitStep_withImg : emitStep (s.withImg n) = outcomeWithImg n (emitStep s) := by
  cases hb : s.streamByte with
  | none => simp [emitStep, streamByte_withImg h, hb]
  | some b =>
    have hn : (s.withImg n).streamByte = some b := (streamByte_withImg h).trans hb
    have hadv : ((s.withImg n).transfer b s.outLast).advance = (s.transfer b s.outLast).advance.withImg n :=
      advance_withImg (s.transfer b s.outLast) n
    have himg : SameButMarkers (s.transfer b s.outLast).advance.img n := by simpa using h
    rw [emitStep_of_byte hn, emitStep_of_byte hb, withImg_outLast, hadv, loadLatch_withImg himg,
      outcomeWithImg_next]

theorem exec_withImg (i : Instr) : exec i (s.withImg n) = outcomeWithImg n (exec i s) := by
  cases i with
  | lookup idx => rfl
  | addr col row =>
    simp only [exec, execAddr]
    split <;> rfl
  | sel byte pair => rfl
  | resolve sel attrA attrB bg =>
    simp only [exec, execResolve, withImg_bgPolicy]
    split <;> rfl
  | pixel col row =>
    simp only [exec, execPixel, pixel_withImg h]
    split
    · rfl
    · split <;> rfl
  | run e => rfl

theorem acceptCommand_withImg : acceptCommand (s.withImg n) = outcomeWithImg n (acceptCommand s) := by
  simp only [acceptCommand, withImg_cmdWord]
  split
  · rfl
  · exact exec_withImg (s := s.takeCommand) h _

/-- The block's step carries an image that differs in the marker bytes alone through unchanged. -/
theorem blockStep_withImg : blockStep (s.withImg n) = outcomeWithImg n (blockStep s) := by
  have haccept : acceptCommand (s.withImg n).noResponse = outcomeWithImg n (acceptCommand s.noResponse) :=
    acceptCommand_withImg (s := s.noResponse) h
  have hemit : emitStep (s.withImg n).noResponse = outcomeWithImg n (emitStep s.noResponse) :=
    emitStep_withImg (s := s.noResponse) h
  simp only [blockStep, withImg_rst, withImg_phase, withImg_cmdValid, withImg_outReady]
  refine ite_eq_outcomeWithImg rfl ?_
  split
  · exact ite_eq_outcomeWithImg haccept rfl
  · exact ite_eq_outcomeWithImg hemit rfl
  · exact ite_eq_outcomeWithImg hemit rfl

end

/-- A host move that is no write carries the other image through. -/
theorem hostMove_withImg_of_not_write {s : State} (hw : ∀ a v rest, s.script ≠ .writeImg a v :: rest) (n : Memory) :
    hostMove (s.withImg n) = outcomeWithImg n (hostMove s) := by
  simp only [hostMove, withImg_script, withImg_cmdValid]
  split
  case h_3 => exact ite_eq_outcomeWithImg rfl rfl
  case h_6 a v rest hs => exact absurd hs (hw a v rest)
  all_goals rfl

/-- A host write writes the other image too. -/
theorem hostMove_withImg_of_write {s : State} {a : ImgAddr} {v : Byte} {rest : List HostMove}
    (hw : s.script = .writeImg a v :: rest) (n : Memory) :
    hostMove (s.withImg n) = outcomeWithImg (n.write a.val v) (hostMove s) := by
  simp only [hostMove, withImg_script, hw, withImg_inFlight]
  exact ite_eq_outcomeWithImg rfl rfl

/-- The host's move goes the same way with the other image, and the images stay alike but for the marker bytes. -/
theorem hostMove_withImg {s : State} {n : Memory} (hs : s.img.wf = true) (hn : n.wf = true)
    (h : SameButMarkers s.img n) :
    ∃ n', hostMove (s.withImg n) = outcomeWithImg n' (hostMove s) ∧
      ∀ m, hostMove s = .next m → SameButMarkers m.img n' := by
  by_cases hw : ∃ a v rest, s.script = .writeImg a v :: rest
  · obtain ⟨a, v, rest, hw⟩ := hw
    refine ⟨_, hostMove_withImg_of_write hw n, fun m hm => ?_⟩
    rcases hostMove_img hm with ⟨a', v', rest', hw', himg⟩ | ⟨hno, -⟩
    · obtain ⟨⟨rfl, rfl⟩, -⟩ : (a = a' ∧ v = v') ∧ rest = rest' := by simpa using hw.symm.trans hw'
      rw [himg]
      exact h.write hs hn a.val v
    · exact absurd hw (hno a v rest)
  · push Not at hw
    refine ⟨n, hostMove_withImg_of_not_write hw n, fun m hm => ?_⟩
    rcases hostMove_img hm with ⟨a, v, rest, hw', -⟩ | ⟨-, himg⟩
    · exact absurd hw' (hw a v rest)
    · rwa [himg]

/-- The step goes the same way with the other image, and the images stay alike but for the marker bytes. -/
theorem step_withImg {s : State} {n : Memory} (hs : s.img.wf = true) (hn : n.wf = true)
    (h : SameButMarkers s.img n) :
    ∃ n', step (s.withImg n) = outcomeWithImg n' (step s) ∧ ∀ t, step s = .next t → SameButMarkers t.img n' := by
  obtain ⟨n', hmove, hsame⟩ := hostMove_withImg hs hn h
  refine ⟨n', ?_, fun t ht => ?_⟩
  · cases hm : hostMove s with
    | next m =>
      rw [hm] at hmove
      rw [step_of_hostMove hmove, step_of_hostMove hm, blockStep_withImg (hsame m hm)]
    | fault f => simp [step, hostThenBlock, hmove, hm]
    | refused r => simp [step, hostThenBlock, hmove, hm]
  · obtain ⟨m, hm, -⟩ := step_next ht
    obtain ⟨-, himg⟩ := blockEffect_memories (blockEffect_of_step hm ht)
    rw [himg]
    exact hsame m hm

/-- Settles O39: the step with the other image is the same step, with an image again alike in its next state. -/
theorem markerBytesHaveNoInfluence : Obligations.MarkerBytesHaveNoInfluence := by
  intro s n hs hn h
  obtain ⟨n', hstep, hsame⟩ := step_withImg hs hn h
  refine ⟨fun t ht => ⟨n', ?_, hsame t ht⟩, fun f hf => ?_, fun r hr => ?_⟩
  · rwa [ht] at hstep
  · rwa [hf] at hstep
  · rwa [hr] at hstep

end Sys2Proof.Machine
end

section
/-! PROOFS. The family of 30_encoding.md: the formats as fields of a word, decoder and encoder against them, the op code
map, the assembler, and the command port's acceptance. -/

namespace Sys2Proof

/-! ## The formats, field by field (R72, R74 to R79) -/

/-- A field holds a value exactly when the word's number has it there. -/
theorem extractLsb'_eq_iff {n : Nat} (w : BitVec n) (start len : Nat) (v : BitVec len) :
    w.extractLsb' start len = v ↔ w.toNat / 2 ^ start % 2 ^ len = v.toNat := by
  rw [← BitVec.toNat_inj, BitVec.extractLsb'_toNat, Nat.shiftRight_eq_div_pow]

/-- The number of two fields put together. -/
theorem toNat_append_eq {m n : Nat} (x : BitVec m) (y : BitVec n) :
    (x ++ y).toNat = x.toNat * 2 ^ n + y.toNat := by
  rw [BitVec.toNat_append, ← Nat.shiftLeft_add_eq_or_of_lt y.isLt, Nat.shiftLeft_eq]

/-- Bit 0 as a field of its own. -/
theorem getLsbD_zero_eq_iff (w : Word) (e : Bool) : w.getLsbD 0 = e ↔ w.extractLsb' 0 1 = BitVec.ofBool e := by
  rw [extractLsb'_eq_iff, BitVec.getLsbD, Nat.testBit_zero]
  cases e <;> simp

section
variable {w : Word}

theorem encode_lookup_eq_iff {idx : BitVec 4} : encode (.lookup idx) = w ↔
    w.extractLsb' 28 4 = 1 ∧ w.extractLsb' 4 24 = 0 ∧ w.extractLsb' 0 4 = idx := by
  simp only [extractLsb'_eq_iff, ← BitVec.toNat_inj (y := w), encode, toNat_append_eq, BitVec.ofNat_eq_ofNat,
    BitVec.toNat_ofNat]
  omega

theorem encode_addr_eq_iff {col row : Byte} : encode (.addr col row) = w ↔
    w.extractLsb' 28 4 = 2 ∧ w.extractLsb' 16 12 = 0 ∧ w.extractLsb' 0 8 = col ∧ w.extractLsb' 8 8 = row := by
  simp only [extractLsb'_eq_iff, ← BitVec.toNat_inj (y := w), encode, toNat_append_eq, BitVec.ofNat_eq_ofNat,
    BitVec.toNat_ofNat]
  omega

theorem encode_sel_eq_iff {byte : Byte} {pair : BitVec 2} : encode (.sel byte pair) = w ↔
    w.extractLsb' 28 4 = 3 ∧ w.extractLsb' 10 18 = 0 ∧ w.extractLsb' 0 8 = byte ∧ w.extractLsb' 8 2 = pair := by
  simp only [extractLsb'_eq_iff, ← BitVec.toNat_inj (y := w), encode, toNat_append_eq, BitVec.ofNat_eq_ofNat,
    BitVec.toNat_ofNat]
  omega

theorem encode_resolve_eq_iff {sel : BitVec 2} {attrA attrB bg : Byte} :
    encode (.resolve sel attrA attrB bg) = w ↔
      w.extractLsb' 28 4 = 4 ∧ w.extractLsb' 26 2 = 0 ∧ w.extractLsb' 24 2 = sel ∧ w.extractLsb' 8 8 = attrA ∧
        w.extractLsb' 16 8 = attrB ∧ w.extractLsb' 0 8 = bg := by
  simp only [extractLsb'_eq_iff, ← BitVec.toNat_inj (y := w), encode, toNat_append_eq, BitVec.ofNat_eq_ofNat,
    BitVec.toNat_ofNat]
  omega

theorem encode_pixel_eq_iff {col row : Byte} : encode (.pixel col row) = w ↔
    w.extractLsb' 28 4 = 5 ∧ w.extractLsb' 16 12 = 0 ∧ w.extractLsb' 0 8 = col ∧ w.extractLsb' 8 8 = row := by
  simp only [extractLsb'_eq_iff, ← BitVec.toNat_inj (y := w), encode, toNat_append_eq, BitVec.ofNat_eq_ofNat,
    BitVec.toNat_ofNat]
  omega

theorem encode_run_eq_iff {e : Bool} : encode (.run e) = w ↔
    w.extractLsb' 28 4 = 6 ∧ w.extractLsb' 1 27 = 0 ∧ w.getLsbD 0 = e := by
  simp only [getLsbD_zero_eq_iff, extractLsb'_eq_iff, ← BitVec.toNat_inj (y := w), encode, toNat_append_eq,
    BitVec.ofNat_eq_ofNat, BitVec.toNat_ofNat]
  omega

/-! ## The decoder by op code (R85) -/

theorem decode_of_op_lookup (h : w.extractLsb' 28 4 = 1) : decode w =
    if w.extractLsb' 4 24 = 0 then .ok (.lookup (w.extractLsb' 0 4)) else .error .reservedBit := by
  simp [decode, h]

theorem decode_of_op_addr (h : w.extractLsb' 28 4 = 2) : decode w =
    if w.extractLsb' 16 12 = 0 then .ok (.addr (w.extractLsb' 0 8) (w.extractLsb' 8 8))
    else .error .reservedBit := by
  simp [decode, h]

theorem decode_of_op_sel (h : w.extractLsb' 28 4 = 3) : decode w =
    if w.extractLsb' 10 18 = 0 then .ok (.sel (w.extractLsb' 0 8) (w.extractLsb' 8 2))
    else .error .reservedBit := by
  simp [decode, h]

theorem decode_of_op_resolve (h : w.extractLsb' 28 4 = 4) : decode w =
    if w.extractLsb' 26 2 = 0 then
      .ok (.resolve (w.extractLsb' 24 2) (w.extractLsb' 8 8) (w.extractLsb' 16 8) (w.extractLsb' 0 8))
    else .error .reservedBit := by
  simp [decode, h]

theorem decode_of_op_pixel (h : w.extractLsb' 28 4 = 5) : decode w =
    if w.extractLsb' 16 12 = 0 then .ok (.pixel (w.extractLsb' 0 8) (w.extractLsb' 8 8))
    else .error .reservedBit := by
  simp [decode, h]

theorem decode_of_op_run (h : w.extractLsb' 28 4 = 6) : decode w =
    if w.extractLsb' 1 27 = 0 then .ok (.run (w.getLsbD 0)) else .error .reservedBit := by
  simp [decode, h]

/-- The op code as a number. -/
theorem toNat_opCode (w : Word) : (w.extractLsb' 28 4).toNat = w.toNat / 2 ^ 28 := by
  have hw := w.isLt
  rw [BitVec.extractLsb'_toNat, Nat.shiftRight_eq_div_pow]
  omega

/-- Op codes 0x0 and 0x7..0xF are reserved. -/
theorem decode_of_reservedOp (h : w.toNat / 2 ^ 28 = 0 ∨ 7 ≤ w.toNat / 2 ^ 28) :
    decode w = .error .reservedOp := by
  rw [← toNat_opCode] at h
  have hne (k : BitVec 4) (hk : 1 ≤ k.toNat ∧ k.toNat ≤ 6) : w.extractLsb' 28 4 ≠ k := by
    rintro rfl
    omega
  simp only [decode, hne 1 (by decide), hne 2 (by decide), hne 3 (by decide), hne 4 (by decide), hne 5 (by decide),
    hne 6 (by decide), if_false]

/-- An op code is reserved or one of the six. -/
theorem opCode_cases (w : Word) : (w.toNat / 2 ^ 28 = 0 ∨ 7 ≤ w.toNat / 2 ^ 28) ∨
    w.extractLsb' 28 4 = 1 ∨ w.extractLsb' 28 4 = 2 ∨ w.extractLsb' 28 4 = 3 ∨
    w.extractLsb' 28 4 = 4 ∨ w.extractLsb' 28 4 = 5 ∨ w.extractLsb' 28 4 = 6 := by
  rw [← toNat_opCode]
  generalize w.extractLsb' 28 4 = op
  revert op
  decide

/-! ## Decoder and encoder (R74 to R79, R85) -/

/-- An operation that a choice answers is the one of its first branch. -/
theorem ite_eq_ok {p : Prop} [Decidable p] {i j : Instr} {e : Illegal}
    (h : (if p then .ok j else .error e : Except Illegal Instr) = .ok i) : p ∧ j = i := by
  split_ifs at h with hp
  exact ⟨hp, by injection h⟩

theorem encode_of_decode {i : Instr} (h : decode w = .ok i) : encode i = w := by
  rcases opCode_cases w with hop | hop | hop | hop | hop | hop | hop
  · simp [decode_of_reservedOp hop] at h
  · obtain ⟨hres, rfl⟩ := ite_eq_ok ((decode_of_op_lookup hop).symm.trans h)
    exact encode_lookup_eq_iff.mpr ⟨hop, hres, rfl⟩
  · obtain ⟨hres, rfl⟩ := ite_eq_ok ((decode_of_op_addr hop).symm.trans h)
    exact encode_addr_eq_iff.mpr ⟨hop, hres, rfl, rfl⟩
  · obtain ⟨hres, rfl⟩ := ite_eq_ok ((decode_of_op_sel hop).symm.trans h)
    exact encode_sel_eq_iff.mpr ⟨hop, hres, rfl, rfl⟩
  · obtain ⟨hres, rfl⟩ := ite_eq_ok ((decode_of_op_resolve hop).symm.trans h)
    exact encode_resolve_eq_iff.mpr ⟨hop, hres, rfl, rfl, rfl, rfl⟩
  · obtain ⟨hres, rfl⟩ := ite_eq_ok ((decode_of_op_pixel hop).symm.trans h)
    exact encode_pixel_eq_iff.mpr ⟨hop, hres, rfl, rfl⟩
  · obtain ⟨hres, rfl⟩ := ite_eq_ok ((decode_of_op_run hop).symm.trans h)
    exact encode_run_eq_iff.mpr ⟨hop, hres, rfl⟩

end

theorem decode_encode (i : Instr) : decode (encode i) = .ok i := by
  cases i with
  | lookup idx =>
    obtain ⟨hop, hres, hidx⟩ := encode_lookup_eq_iff.mp (rfl : encode (.lookup idx) = _)
    rw [decode_of_op_lookup hop, if_pos hres, hidx]
  | addr col row =>
    obtain ⟨hop, hres, hcol, hrow⟩ := encode_addr_eq_iff.mp (rfl : encode (.addr col row) = _)
    rw [decode_of_op_addr hop, if_pos hres, hcol, hrow]
  | sel byte pair =>
    obtain ⟨hop, hres, hbyte, hpair⟩ := encode_sel_eq_iff.mp (rfl : encode (.sel byte pair) = _)
    rw [decode_of_op_sel hop, if_pos hres, hbyte, hpair]
  | resolve sel attrA attrB bg =>
    obtain ⟨hop, hres, hsel, ha, hb, hbg⟩ :=
      encode_resolve_eq_iff.mp (rfl : encode (.resolve sel attrA attrB bg) = _)
    rw [decode_of_op_resolve hop, if_pos hres, hsel, ha, hb, hbg]
  | pixel col row =>
    obtain ⟨hop, hres, hcol, hrow⟩ := encode_pixel_eq_iff.mp (rfl : encode (.pixel col row) = _)
    rw [decode_of_op_pixel hop, if_pos hres, hcol, hrow]
  | run e =>
    obtain ⟨hop, hres, he⟩ := encode_run_eq_iff.mp (rfl : encode (.run e) = _)
    rw [decode_of_op_run hop, if_pos hres, he]

/-- Settles O2: a legal word's fields with its op code and reserved zeros are the encoding, and each encoding is read
back field by field. -/
theorem decodeIffEncode : Obligations.DecodeIffEncode := fun _ _ =>
  ⟨encode_of_decode, fun h => h ▸ decode_encode _⟩

/-! ## The op code map (R73, R80) -/

/-- Under a mask of all but the low `n` bits a word keeps its op code and its reserved field. -/
theorem and_mask_eq_iff (w : Word) (op : BitVec 4) {n : Nat} (hn : n ≤ 28) :
    w &&& BitVec.allOnes 32 <<< n = op.setWidth 32 <<< 28 ↔
      w.extractLsb' 28 4 = op ∧ w.extractLsb' n (28 - n) = 0 := by
  rw [← BitVec.shiftLeft_ushiftRight]
  constructor
  · intro h
    constructor
    · ext i hi
      have hbit := congrArg (BitVec.getLsbD · (28 + i)) h
      simpa [hi, show 28 + i < 32 by omega, show ¬28 + i < n by omega,
        show n + (28 + i - n) = 28 + i by omega] using hbit
    · ext i hi
      have hbit := congrArg (BitVec.getLsbD · (n + i)) h
      simpa [show n + i < 32 by omega, show n + i < 28 by omega] using hbit
  · rintro ⟨rfl, hres⟩
    ext i hi
    have hbit := congrArg (BitVec.getLsbD · (i - n)) hres
    rcases Nat.lt_or_ge i n with hlow | hlow
    · simp [hlow, show i < 28 by omega]
    rcases Nat.lt_or_ge i 28 with hhigh | hhigh
    · simpa [hi, hhigh, Nat.not_lt.mpr hlow, Nat.add_sub_cancel' hlow, show i - n < 28 - n by omega] using hbit
    · simp [hi, Nat.not_lt.mpr hlow, Nat.not_lt.mpr hhigh, Nat.add_sub_cancel' hlow, Nat.add_sub_cancel' hhigh,
        show i - 28 < 4 by omega]

/-- For a word of the row's op code the row selects exactly the words whose reserved field is 0. -/
theorem reserved_eq_zero_iff {w : Word} {op : BitVec 4} (hop : w.extractLsb' 28 4 = op) {n : Nat} (hn : n ≤ 28) :
    w.extractLsb' n (28 - n) = 0 ↔ w &&& BitVec.allOnes 32 <<< n = op.setWidth 32 <<< 28 := by
  rw [and_mask_eq_iff w op hn, and_iff_right hop]

/-- No two rows have one op code. -/
theorem opTable_op_injective : ∀ r ∈ opTable, ∀ r' ∈ opTable,
    r.matchBits.toNat / 2 ^ 28 = r'.matchBits.toNat / 2 ^ 28 → r = r' := by decide

/-- The op code is part of every mask (R80). -/
theorem opTable_mask_op : ∀ r ∈ opTable, r.mask.extractLsb' 28 4 = BitVec.allOnes 4 := by decide

theorem opCode_of_selects {w : Word} {r : OpRow} (hr : r ∈ opTable) (h : w &&& r.mask = r.matchBits) :
    w.toNat / 2 ^ 28 = r.matchBits.toNat / 2 ^ 28 := by
  rw [← toNat_opCode, ← toNat_opCode, ← h, BitVec.extractLsb'_and, opTable_mask_op r hr, BitVec.and_allOnes]

/-- For an op code of the map, the word decodes exactly when the row selects it. -/
theorem decode_of_row {w : Word} {r : OpRow} (hr : r ∈ opTable)
    (hop : w.toNat / 2 ^ 28 = r.matchBits.toNat / 2 ^ 28) :
    ∃ i, decode w = if w &&& r.mask = r.matchBits then .ok i else .error .reservedBit := by
  rw [← toNat_opCode, ← toNat_opCode, BitVec.toNat_inj] at hop
  simp only [opTable, List.mem_cons, List.not_mem_nil, or_false] at hr
  rcases hr with rfl | rfl | rfl | rfl | rfl | rfl
  · exact ⟨_, (decode_of_op_lookup hop).trans (if_congr (reserved_eq_zero_iff hop (n := 4) (by decide)) rfl rfl)⟩
  · exact ⟨_, (decode_of_op_addr hop).trans (if_congr (reserved_eq_zero_iff hop (n := 16) (by decide)) rfl rfl)⟩
  · exact ⟨_, (decode_of_op_sel hop).trans (if_congr (reserved_eq_zero_iff hop (n := 10) (by decide)) rfl rfl)⟩
  · exact ⟨_, (decode_of_op_resolve hop).trans (if_congr (reserved_eq_zero_iff hop (n := 26) (by decide)) rfl rfl)⟩
  · exact ⟨_, (decode_of_op_pixel hop).trans (if_congr (reserved_eq_zero_iff hop (n := 16) (by decide)) rfl rfl)⟩
  · exact ⟨_, (decode_of_op_run hop).trans (if_congr (reserved_eq_zero_iff hop (n := 1) (by decide)) rfl rfl)⟩

/-- An op code is reserved or has a row. -/
theorem reservedOp_or_row (w : Word) : (w.toNat / 2 ^ 28 = 0 ∨ 7 ≤ w.toNat / 2 ^ 28) ∨
    ∃ r ∈ opTable, w.toNat / 2 ^ 28 = r.matchBits.toNat / 2 ^ 28 := by
  have hop := opCode_cases w
  simp only [← BitVec.toNat_inj, toNat_opCode] at hop
  simpa [opTable] using hop

/-- The encoding of every operation selects a row, its own. -/
theorem exists_row_selects_encode (i : Instr) : ∃ r ∈ opTable, encode i &&& r.mask = r.matchBits := by
  refine ⟨i.opRow, List.get_mem _ _, ?_⟩
  cases i with
  | lookup idx => exact Laws.SelectsOwnRow.lookup idx
  | addr col row => exact Laws.SelectsOwnRow.addr col row
  | sel byte pair => exact Laws.SelectsOwnRow.sel byte pair
  | resolve sel attrA attrB bg => exact Laws.SelectsOwnRow.resolve sel attrA attrB bg
  | pixel col row => exact Laws.SelectsOwnRow.pixel col row
  | run e => exact Laws.SelectsOwnRow.run e

/-! ## The assembler (R86, R87) -/

theorem assemble_eq_none_iff (a : Asm) : assemble a = none ↔ ¬a.wellFormed = true := by
  simp [assemble]

/-- The assembly line of an operation. -/
def Instr.line : Instr → Asm
  | .lookup idx => .lookup idx.toNat
  | .addr col row => .addr col.toNat row.toNat
  | .sel byte pair => .sel byte.toNat pair.toNat
  | .resolve s attrA attrB bg => .resolve s.toNat attrA.toNat attrB.toNat bg.toNat
  | .pixel col row => .pixel col.toNat row.toNat
  | .run e => .run (some e.toNat)

/-- Every operand of an operation fits its field. -/
theorem wellFormed_line (i : Instr) : i.line.wellFormed = true := by
  cases i with
  | lookup idx => simp [Instr.line, Asm.wellFormed, idx.isLt]
  | addr col row => simp [Instr.line, Asm.wellFormed, col.isLt, row.isLt]
  | sel byte pair => simp [Instr.line, Asm.wellFormed, byte.isLt, pair.isLt]
  | resolve sel attrA attrB bg =>
    simp [Instr.line, Asm.wellFormed, sel.isLt, attrA.isLt, attrB.isLt, bg.isLt]
  | pixel col row => simp [Instr.line, Asm.wellFormed, col.isLt, row.isLt]
  | run e => cases e <;> rfl

theorem assemble_line (i : Instr) : assemble i.line = some (encode i) := by
  have hnum {n : Nat} (h : n = (encode i).toNat) : some (BitVec.ofNat 32 n) = some (encode i) := by
    rw [h, BitVec.ofNat_toNat, BitVec.setWidth_eq]
  rw [assemble.eq_def, if_pos (wellFormed_line i)]
  apply hnum
  cases i with
  | run e => cases e <;> rfl
  | _ =>
    simp only [Instr.line, encode, BitVec.toNat_append, BitVec.toNat_ofNat, Nat.shiftLeft_or_distrib,
      ← Nat.shiftLeft_add]
    rfl

theorem assemble_word (w : Word) : assemble (.word w.toNat) = some w := by
  simp [assemble, Asm.wellFormed, w.isLt]

/-- Settles O4: a refused line is one that is not well formed, and the line of an operation, in range or not, has the
operation's encoding. -/
theorem assemblerRefusesWideOperands : Obligations.AssemblerRefusesWideOperands := by
  refine ⟨fun n => ?_, fun c r => ?_, fun b p => ?_, fun s a b g => ?_, fun c r => ?_, fun e => ?_, fun n => ?_,
    fun i => assemble_line (.lookup i), fun c r => assemble_line (.addr c r), fun b p => assemble_line (.sel b p),
    fun s a b g => assemble_line (.resolve s a b g), fun c r => assemble_line (.pixel c r),
    fun e => assemble_line (.run e), assemble_line (.run false), assemble_line (.run true), assemble_word⟩
  all_goals
    simp only [assemble_eq_none_iff, Asm.wellFormed, Bool.and_eq_true, decide_eq_true_eq]
    omega

/-! ## The worked encodings (R88) -/

/-- A text that reads as an operation's line assembles to the operation's word, which decodes to it again. -/
theorem assembleText_decode {text : String} {i : Instr} {w : Word} {a : Asm}
    (ha : assemble a = some (encode i)) (htext : parseAsm text.toList = some a) (hw : encode i = w) :
    assembleText text = some w ∧ decode w = .ok i := by
  subst hw
  exact ⟨by rw [assembleText, htext, Option.bind_some, ha], decode_encode i⟩

/-- Settles O1: each text is read as a line, whose word and operation the general theorems give. -/
theorem workedEncodingsHold : Obligations.WorkedEncodingsHold :=
  ⟨assembleText_decode (assemble_line _) rfl rfl, assembleText_decode (assemble_line _) rfl rfl,
    assembleText_decode (assemble_line _) rfl rfl, assembleText_decode (assemble_line _) rfl rfl,
    assembleText_decode (assemble_line _) rfl rfl, assembleText_decode (assemble_line _) rfl rfl,
    assembleText_decode (assemble_line _) rfl rfl,
    assembleText_decode (a := .runx) (assemble_line (.run true)) rfl rfl⟩

end Sys2Proof

namespace Sys2Proof.Machine

/-! ## The command port (R70, R71, R80) -/

/-- A block that accepts a command does what the command says, in the state without it on the port. -/
theorem blockStep_of_accepts {m : State} (h : m.Accepts) : blockStep m = acceptCommand m.noResponse := by
  obtain ⟨hphase, hrst, hvalid⟩ := h
  simp [blockStep, hphase, hrst, hvalid]

theorem step_of_illegal {s m : State} {e : Illegal} (hm : hostMove s = .next m) (ha : m.Accepts)
    (hd : decode m.cmdWord = .error e) : step s = .next (m.accepted.raiseErr .op) := by
  simp [step_of_hostMove hm, blockStep_of_accepts ha, acceptCommand, hd]

theorem step_of_legal {s m : State} {i : Instr} (hm : hostMove s = .next m) (ha : m.Accepts)
    (hd : decode m.cmdWord = .ok i) : step s = exec i m.accepted := by
  simp [step_of_hostMove hm, blockStep_of_accepts ha, acceptCommand, hd]

/-- An IDLE block that accepts nothing only clears the response strobe. -/
theorem step_of_idle {s m : State} (hm : hostMove s = .next m) (hna : ¬m.Accepts) (hrst : m.rst = false)
    (hphase : m.phase = .idle) : step s = .next m.noResponse := by
  have hvalid : m.cmdValid = false := by simpa [State.Accepts, hrst, hphase] using hna
  simp [step_of_hostMove hm, blockStep, hrst, hphase, hvalid]

theorem raisesErrOp_of_illegal {w : Word} {e : Illegal} (h : decode w = .error e) : RaisesErrOp w := by
  rintro s m hm ha rfl
  exact step_of_illegal hm ha h

/-- An offer goes onto a free port. -/
theorem hostMove_of_offer {s : State} {w : Word} {rest : List HostMove} (hs : s.script = .offer w :: rest)
    (hv : s.cmdValid = false) : hostMove s = .next { s with script := rest, cmdValid := true, cmdWord := w } := by
  simp [hostMove, hs, hv]

/-- Settles O27: acceptance executes the decoded word, and the host's two moves are read off. -/
theorem stepRunsDecodedOperation : Obligations.StepRunsDecodedOperation :=
  ⟨fun _ _ _ => step_of_legal, fun _ _ _ => hostMove_of_offer, fun s hs => by simp [hostMove, hs]⟩

/-- Settles O28: the placed offer reaches the port in the host's move, and the block then accepts it. -/
theorem placedWordRunsNext : Obligations.PlacedWordRunsNext := by
  intro s w i hd
  have hw : BitVec.ofNat 32 (w.toNat % 2 ^ 32) = w := by
    rw [Nat.mod_eq_of_lt w.isLt, BitVec.ofNat_toNat, BitVec.setWidth_eq]
  rw [State.withFetchWord, hw]
  exact step_of_legal (hostMove_of_offer rfl rfl) ⟨rfl, rfl, rfl⟩ hd

/-- Settles O3: the op code picks the one row that can select a word; the row's mask then decides, and a word without
a row has a reserved op code. -/
theorem legalIffOneRowSelects : Obligations.LegalIffOneRowSelects := by
  refine ⟨fun w => ⟨fun ⟨i, hi⟩ => ?_, fun ⟨r, hr, hsel⟩ => ?_⟩, fun w r hr r' hr' hsel hsel' => ?_, fun w => ?_,
    fun w => ?_, fun w e => raisesErrOp_of_illegal⟩
  · exact encode_of_decode hi ▸ exists_row_selects_encode i
  · obtain ⟨i, hi⟩ := decode_of_row hr (opCode_of_selects hr hsel)
    exact ⟨i, by rw [hi, if_pos hsel]⟩
  · exact opTable_op_injective r hr r' hr' ((opCode_of_selects hr hsel).symm.trans (opCode_of_selects hr' hsel'))
  · refine ⟨fun hd => (reservedOp_or_row w).resolve_right fun ⟨r, hr, hop⟩ => ?_, decode_of_reservedOp⟩
    obtain ⟨i, hi⟩ := decode_of_row hr hop
    rw [hi] at hd
    split_ifs at hd
    cases hd
  · refine ⟨fun hd => ?_, fun ⟨r, hr, hop, hnsel⟩ => ?_⟩
    · rcases reservedOp_or_row w with hres | ⟨r, hr, hop⟩
      · simp [decode_of_reservedOp hres] at hd
      · obtain ⟨i, hi⟩ := decode_of_row hr hop
        refine ⟨r, hr, hop, fun hsel => ?_⟩
        simp [hi, hsel] at hd
    · obtain ⟨i, hi⟩ := decode_of_row hr hop
      rw [hi, if_neg hnsel]

/-- Settles O30: the response strobe, the registers and the log in each of the ways a step can go on. -/
theorem oneResponsePerCommand : Obligations.OneResponsePerCommand := by
  refine ⟨fun s m t hm h => ?_, fun s m hm hna hrst hphase => ?_⟩
  · obtain ⟨-, -, -, -, -, -, -, -, -, -, hword, herr, -, -, -, -, hlog⟩ := hostMove_frame hm
    rw [← hword, ← herr, ← hlog]
    cases blockEffect_of_step hm h with
    | reset hr => simp [State.Accepts, hr]
    | hold hr ha ht => simp [ha]
    | run ha e hd => simp [ha, hd, State.startRun]
    | respond ha hd w => simp [ha, hd]
    | error ha hd k => simp [ha, hd]
    | byte ht b hb => simp [ht.not_accepts]
  · obtain ⟨-, -, -, -, -, -, -, -, hop, hrange, hword, herr, -, -, -, -, hlog⟩ := hostMove_frame hm
    exact ⟨step_of_idle hm hna hrst hphase, hword, herr, hop, hrange, hlog⟩

end Sys2Proof.Machine
end

section
/-! PROOFS. The family of 40_palette_rom.md: LOOKUP. -/

namespace Sys2Proof.Machine

/-! ## Response words with a triple (R82) and STATUS (R28) -/

/-- A triple below a first byte is its three channels, one by one. -/
theorem append_rgbBits (x : Byte) (t : Rgb) : x ++ rgbBits t = x ++ t.r ++ t.g ++ t.b := by
  apply BitVec.eq_of_toNat_eq
  simp only [rgbBits, toNat_append_eq]
  omega

theorem lookupWord_eq (t : Rgb) : lookupWord t = 0#8 ++ t.r ++ t.g ++ t.b := append_rgbBits _ t

theorem lookupWord_black : lookupWord Rgb.black = 0 := by decide

/-- A response that is no error leaves STATUS as it was. -/
@[simp] theorem respond_status (s : State) (w : Word) : (s.respond w).status = s.status := rfl

/-! ## LOOKUP (R91) -/

theorem exec_lookup (idx : BitVec 4) (s : State) :
    exec (.lookup idx) s = .next (s.respond (lookupWord (s.romRead idx))) := rfl

/-- A LOOKUP always goes on, and only to the state with its response. -/
theorem exec_lookup_eq_next {idx : BitVec 4} {s t : State} :
    exec (.lookup idx) s = .next t ↔ t = s.respond (lookupWord (s.romRead idx)) := by
  rw [exec_lookup, Host.Outcome.next.injEq, eq_comm]

theorem decode_of_lookup_row {w : Word} (h : w &&& 0xFFFFFFF0 = 0x10000000) :
    decode w = .ok (.lookup (w.extractLsb' 0 4)) := by
  obtain ⟨hop, hres⟩ := (and_mask_eq_iff w 1 (n := 4) (by decide)).mp h
  rw [decode_of_op_lookup hop, if_pos hres]

theorem decode_of_lookup_reservedBit {w : Word} (hop : w.extractLsb' 28 4 = 1) (hres : w.extractLsb' 4 24 ≠ 0) :
    decode w = .error .reservedBit := by
  rw [decode_of_op_lookup hop, if_neg hres]

/-- Settles O13: the row fixes op code and reserved field, and the one effect of LOOKUP is the response of the entry,
which STATUS does not see and which is the zero word for the invariant's black entry 0. -/
theorem lookupResult : Obligations.LookupResult := by
  refine ⟨fun w => decode_of_lookup_row,
    fun w hop hres => raisesErrOp_of_illegal (decode_of_lookup_reservedBit hop hres),
    fun idx s => ?_, fun idx s t h => ?_, fun s t hs h => ?_⟩
  · rw [exec_lookup, lookupWord_eq]
    rfl
  · rw [exec_lookup_eq_next.mp h, respond_status]
  · rw [exec_lookup_eq_next.mp h, respond_rspWord, hs.romZero, lookupWord_black]

end Sys2Proof.Machine
end

section
/-! PROOFS. The family of 41_cell_address.md: the address arithmetic as numbers and as bits, and ADDR. -/

namespace Sys2Proof.Machine

/-! ## The offsets and the pair as numbers (R102 to R104, R106)

The source's formulas on natural numbers: at a grid position the 13, 10 and 2 bits hold them unreduced. -/

theorem bmOff_toNat (c : Col) (r : Row) :
    (bmOff c r).toNat = c.val / 4 * 8 + r.val % 8 + r.val / 8 * 320 := by
  have hc := c.isLt
  have hr := r.isLt
  rw [bmOff, BitVec.toNat_ofNat, Nat.mod_eq_of_lt (by omega)]

theorem attrOff_toNat (c : Col) (r : Row) : (attrOff c r).toNat = c.val / 4 + r.val / 8 * 40 := by
  have hc := c.isLt
  have hr := r.isLt
  rw [attrOff, BitVec.toNat_ofNat, Nat.mod_eq_of_lt (by omega)]

theorem pairIndex_toNat (c : Col) : (pairIndex c).toNat = c.val % 4 := by
  rw [pairIndex, BitVec.toNat_ofNat]
  exact Nat.mod_mod _ _

/-! ## The tie of the two offsets (R107) -/

theorem bmOff_toNat_eq_attrOff (c : Col) (r : Row) :
    (bmOff c r).toNat = 8 * (attrOff c r).toNat + r.val % 8 := by
  rw [bmOff_toNat, attrOff_toNat]
  omega

/-- The bitmap offset is the cell's offset in planes A and B, followed by the line in the cell. -/
theorem bmOff_eq_append (c : Col) (r : Row) : bmOff c r = attrOff c r ++ BitVec.ofNat 3 r.val := by
  rw [← BitVec.toNat_inj, bmOff_toNat_eq_attrOff, toNat_append_eq, BitVec.toNat_ofNat]
  omega

theorem bmOff_line (c : Col) (r : Row) : (bmOff c r).extractLsb' 0 3 = BitVec.ofNat 3 r.val := by
  rw [bmOff_eq_append, BitVec.extractLsb'_append_eq_right]

theorem bmOff_cell (c : Col) (r : Row) : (bmOff c r).extractLsb' 3 10 = attrOff c r := by
  rw [bmOff_eq_append, BitVec.extractLsb'_append_eq_left]

/-! ## The coordinates' bits (R108) -/

/-- Column and row of the cell are the upper bits of the coordinate bytes: division by 4 and by 8. -/
theorem toNat_upperBits (b : Byte) :
    (b.extractLsb' 2 6).toNat = b.toNat / 4 ∧ (b.extractLsb' 3 5).toNat = b.toNat / 8 := by
  have hb := b.isLt
  simp only [BitVec.extractLsb'_toNat, Nat.shiftRight_eq_div_pow]
  omega

/-- 40 is 32 and 8, so two shifts multiply by it, wrapping or not. -/
theorem shiftLeft_five_add_three (x : BitVec 10) : (x <<< 5) + (x <<< 3) = x * 40#10 := by
  rw [BitVec.shiftLeft_eq_mul_twoPow, BitVec.shiftLeft_eq_mul_twoPow, ← BitVec.mul_add]
  rfl

section
variable {col row : Byte} {c : Col} {r : Row}

/-- The offset in planes A and B by one multiplication. -/
theorem attrOff_eq_mul (h : gridPos col row = some (c, r)) :
    attrOff c r = (row.extractLsb' 3 5).setWidth 10 * 40#10 + (col.extractLsb' 2 6).setWidth 10 := by
  obtain ⟨hc, hr⟩ := gridPos_eq_some.mp h
  rw [← BitVec.toNat_inj, attrOff_toNat, BitVec.toNat_add, BitVec.toNat_mul, BitVec.toNat_setWidth,
    BitVec.toNat_setWidth, (toNat_upperBits row).2, (toNat_upperBits col).1, hc, hr, BitVec.toNat_ofNat]
  omega

/-- The line in the cell is the low three bits of the row byte. -/
theorem line_eq_extractLsb' (h : gridPos col row = some (c, r)) : BitVec.ofNat 3 r.val = row.extractLsb' 0 3 := by
  rw [← (gridPos_eq_some.mp h).2, ← BitVec.setWidth_eq_extractLsb' (by decide), BitVec.ofNat_toNat]

theorem pairIndex_eq_extractLsb' (h : gridPos col row = some (c, r)) : pairIndex c = col.extractLsb' 0 2 := by
  rw [eq_comm, extractLsb'_eq_iff, pairIndex_toNat, (gridPos_eq_some.mp h).1]
  omega

end

/-! ## The position from the bitmap offset and the pair (R110) -/

/-- A bitmap offset names the cell's row, its column and the line. -/
theorem bmOff_inj {c c' : Col} {r r' : Row} : bmOff c r = bmOff c' r' ↔ c.val / 4 = c'.val / 4 ∧ r = r' := by
  have hc := c.isLt
  have hc' := c'.isLt
  rw [← BitVec.toNat_inj, bmOff_toNat, bmOff_toNat, Fin.ext_iff]
  omega

theorem pairIndex_inj {c c' : Col} : pairIndex c = pairIndex c' ↔ c.val % 4 = c'.val % 4 := by
  rw [← BitVec.toNat_inj, pairIndex_toNat, pairIndex_toNat]

/-- The byte `b` lies in row `b / 320` of cells, column `b / 8 % 40`, line `b % 8`, and every pair of it is a pixel. -/
theorem exists_position {b p : Nat} (hb : b < 8000) (hp : p < 4) :
    ∃ c r, (bmOff c r).toNat = b ∧ (pairIndex c).toNat = p := by
  refine ⟨⟨b / 8 % 40 * 4 + p, by omega⟩, ⟨b / 320 * 8 + b % 8, by omega⟩, ?_, ?_⟩
  · rw [bmOff_toNat]
    dsimp only
    omega
  · rw [pairIndex_toNat]
    dsimp only
    omega

/-! ## ADDR (R109) -/

theorem exec_addr_of_inRange {col row : Byte} {c : Col} {r : Row} (h : gridPos col row = some (c, r)) (s : State) :
    exec (.addr col row) s = .next (s.respond (addrWord (attrOff c r) (bmOff c r))) := by
  simp only [exec, execAddr, h]

theorem exec_addr_of_outOfRange {col row : Byte} (h : gridPos col row = none) (s : State) :
    exec (.addr col row) s = .next (s.raiseErr .range) := by
  simp only [exec, execAddr, h]

theorem decode_of_addr_row {w : Word} (h : w &&& 0xFFFF0000 = 0x20000000) :
    decode w = .ok (.addr (w.extractLsb' 0 8) (w.extractLsb' 8 8)) := by
  obtain ⟨hop, hres⟩ := (and_mask_eq_iff w 2 (n := 16) (by decide)).mp h
  rw [decode_of_op_addr hop, if_pos hres]

theorem decode_of_addr_reservedBit {w : Word} (hop : w.extractLsb' 28 4 = 2) (hres : w.extractLsb' 16 12 ≠ 0) :
    decode w = .error .reservedBit := by
  rw [decode_of_op_addr hop, if_neg hres]

/-! ## The statements -/

/-- Settles O5: the range check answers the two bytes as a position, where the offsets are their formulas. -/
theorem addressFormulasHold : Obligations.AddressFormulasHold :=
  ⟨fun _ _ hc hr => ⟨_, _, gridPos_of_inRange hc hr, bmOff_toNat _ _, attrOff_toNat _ _, pairIndex_toNat _⟩,
    fun _ _ => gridPos_eq_none.mpr⟩

/-- Settles O6: the offsets are their formulas on numbers, whose terms the grid bounds, and the bitmap offset is
the cell's offset put before the line. -/
theorem addressRangesAndTie : Obligations.AddressRangesAndTie := by
  refine ⟨fun c r => ?_, ?_, fun c r => ⟨bmOff_toNat_eq_attrOff c r, bmOff_line c r, bmOff_cell c r⟩⟩
  · have hc := c.isLt
    have hr := r.isLt
    exact ⟨bmOff_le c r, attrOff_le c r, by omega, by omega, by omega, by omega, bmOff_toNat c r, attrOff_toNat c r⟩
  · simp only [bmOff_toNat, attrOff_toNat]
    decide

/-- Settles O7: the multiplication as two shifts, and the fields of the coordinate bytes as the quotients and
remainders of the formulas. -/
theorem addressBitForm : Obligations.AddressBitForm := by
  intro col row c r h
  have hmul := attrOff_eq_mul h
  refine ⟨hmul, ?_, ?_, pairIndex_eq_extractLsb' h⟩
  · rw [shiftLeft_five_add_three, hmul]
  · rw [← line_eq_extractLsb' h, bmOff_eq_append]

/-- Settles O8: a bitmap offset fixes the row and the column's group of four, the pair the column in the group. -/
theorem addressMapIsBijection : Obligations.AddressMapIsBijection := by
  refine ⟨fun c c' r hgroup => bmOff_inj.mpr ⟨hgroup, rfl⟩, pairIndex_toNat, fun c c' r r' hcol hrow => ?_,
    fun c c' r r' hbm hpair => ?_, fun b p => exists_position⟩
  · rw [attrOff, attrOff, hcol, hrow]
  · obtain ⟨hgroup, hrow⟩ := bmOff_inj.mp hbm
    have hin := pairIndex_inj.mp hpair
    exact ⟨Fin.ext (by omega), hrow⟩

/-- Settles O14: the row fixes op code and reserved field, and the range check decides between the response of the
offsets and ERR_RANGE, each the whole effect. -/
theorem addrResult : Obligations.AddrResult :=
  ⟨fun _ => decode_of_addr_row, fun _ hop hres => raisesErrOp_of_illegal (decode_of_addr_reservedBit hop hres),
    fun _ _ s hc hr => exec_addr_of_inRange (gridPos_of_inRange hc hr) s,
    fun _ _ s h => exec_addr_of_outOfRange (gridPos_eq_none.mpr h) s⟩

end Sys2Proof.Machine
end

section
/-! PROOFS. The family of 42_pixel_color_decoder.md: the selector and the nibbles as numbers, the colour sources, what
the pixel function reads, and SEL, RESOLVE and PIXEL. -/

namespace Sys2Proof.Machine

/-! ## The selector (R121) -/

theorem selShift_eq (p : BitVec 2) : selShift p = 6 - 2 * p.toNat := by
  revert p
  decide

/-- A mask has ones exactly in its pair's bits. -/
theorem selMask_eq (p : BitVec 2) : selMask p = 0b11#8 <<< selShift p := by
  revert p
  decide

/-- A two-bit mask shifted to a position and back reads the two bits there. -/
theorem and_mask_ushiftRight (b : Byte) (n : Nat) : ((b &&& 0b11#8 <<< n) >>> n).setWidth 2 = b.extractLsb' n 2 := by
  ext i hi
  have hone : (0b11#8).getLsbD i = true := by interval_cases i <;> rfl
  simpa [hone] using fun hb => BitVec.lt_of_getLsbD hb

theorem selector_eq_extractLsb' (b : Byte) (p : BitVec 2) : selector b p = b.extractLsb' (selShift p) 2 := by
  rw [selector, selMask_eq, and_mask_ushiftRight]

/-- The selector is the bit pair `7 - 2p` down to `6 - 2p` of the byte. -/
theorem selector_toNat (b : Byte) (p : BitVec 2) : (selector b p).toNat = b.toNat / 2 ^ (6 - 2 * p.toNat) % 4 := by
  rw [selector_eq_extractLsb', BitVec.extractLsb'_toNat, Nat.shiftRight_eq_div_pow, selShift_eq]

/-- Two bits hold the masked and shifted byte unreduced. -/
theorem selector_toNat_eq_mask (b : Byte) (p : BitVec 2) :
    (selector b p).toNat = (b.toNat &&& (selMask p).toNat) >>> selShift p := by
  have hmask : (selMask p).toNat >>> selShift p = 3 := by
    revert p
    decide
  have hle : (b.toNat &&& (selMask p).toNat) >>> selShift p ≤ 3 := by
    rw [Nat.shiftRight_and_distrib, hmask]
    exact Nat.and_le_right
  rw [selector, BitVec.toNat_setWidth, BitVec.toNat_ushiftRight, BitVec.toNat_and, Nat.mod_eq_of_lt (by omega)]

/-! ## The nibbles and the colour sources (R60, R123, R124) -/

theorem highNibble_eq_ofNat (b : Byte) : highNibble b = BitVec.ofNat 4 (b.toNat / 16) := by
  rw [highNibble, extractLsb'_eq_iff, BitVec.toNat_ofNat]
  rfl

theorem lowNibble_eq_ofNat (b : Byte) : lowNibble b = BitVec.ofNat 4 (b.toNat % 16) := by
  rw [lowNibble, extractLsb'_eq_iff, BitVec.toNat_ofNat]
  omega

theorem highNibble_toNat (b : Byte) : (highNibble b).toNat = b.toNat / 16 := by
  have hb := b.isLt
  rw [highNibble_eq_ofNat, BitVec.toNat_ofNat, Nat.mod_eq_of_lt (by omega)]

theorem lowNibble_toNat (b : Byte) : (lowNibble b).toNat = b.toNat % 16 := by
  rw [lowNibble_eq_ofNat, BitVec.toNat_ofNat]
  omega

theorem highNibble_ne_zero {b : Byte} : highNibble b ≠ 0 ↔ 16 ≤ b.toNat := by
  rw [ne_eq, ← BitVec.toNat_inj, highNibble_toNat, BitVec.ofNat_eq_ofNat, BitVec.toNat_zero]
  omega

/-- The two policies differ on the bytes from 16 on alone. -/
theorem bgIndex_of_lt {g : Byte} (hg : g.toNat < 16) (p : BgPolicy) : bgIndex p g = some (BitVec.ofNat 4 g.toNat) := by
  cases hi : bgIndex p g with
  | none =>
    obtain ⟨-, hhigh⟩ := bgIndex_eq_none.mp hi
    exact absurd (highNibble_ne_zero.mp hhigh) (Nat.not_le.mpr hg)
  | some i => rw [bgIndex_eq_some hi, lowNibble_eq_ofNat, Nat.mod_eq_of_lt hg]

theorem bgIndex_fault_of_le {g : Byte} (hg : 16 ≤ g.toNat) : bgIndex .fault g = none :=
  bgIndex_eq_none.mpr ⟨rfl, highNibble_ne_zero.mpr hg⟩

section
variable {p : BgPolicy} {sel : BitVec 2} {a b g : Byte}

/-- BG_HIGH_NIBBLE by the background byte's number. -/
theorem resolve_eq_none_iff_le : resolve p sel a b g = none ↔ p = .fault ∧ sel = 0#2 ∧ 16 ≤ g.toNat := by
  rw [resolve_eq_none, highNibble_ne_zero]

/-- An index that is answered is the number of the source its selector chooses. -/
theorem resolve_eq_some {i : BitVec 4} (h : resolve p sel a b g = some i) :
    (sel = 0#2 → i.toNat = g.toNat % 16) ∧ (sel = 1#2 → i.toNat = a.toNat / 16) ∧
      (sel = 2#2 → i.toNat = a.toNat % 16) ∧ (sel = 3#2 → i.toNat = b.toNat % 16) := by
  rcases selector_cases sel with rfl | rfl | rfl | rfl
  · rw [resolve_zero] at h
    simp [bgIndex_eq_some h, lowNibble_toNat]
  · rw [resolve_one, Option.some_inj] at h
    simp [← h, highNibble_toNat]
  · rw [resolve_two, Option.some_inj] at h
    simp [← h, lowNibble_toNat]
  · rw [resolve_three, Option.some_inj] at h
    simp [← h, lowNibble_toNat]

end

/-! ## The pixel function (R128, R130) -/

theorem pixelSel_toNat (s : State) (c : Col) (r : Row) : (s.pixelSel c r).toNat =
    (s.img.read (2 + (c.val / 4 * 8 + r.val % 8 + r.val / 8 * 320))).toNat / 2 ^ (6 - 2 * (c.val % 4)) % 4 := by
  rw [State.pixelSel, selector_toNat, pairIndex_toNat, bmOff_toNat, bmBase]

theorem pixelIdx_eq_resolve (s : State) (c : Col) (r : Row) : s.pixelIdx c r =
    resolve s.bgPolicy (s.pixelSel c r) (s.img.read (8002 + (c.val / 4 + r.val / 8 * 40)))
      (s.img.read (9002 + (c.val / 4 + r.val / 8 * 40))) (s.img.read 10002) := by
  rw [State.pixelIdx, attrOff_toNat, aBase, bBase, bgAddr]

section
variable {s : State} {c : Col} {r : Row}

/-- A pixel has no index exactly where BG_HIGH_NIBBLE is taken. -/
theorem pixelIdx_eq_none : s.pixelIdx c r = none ↔
    s.bgPolicy = .fault ∧ (s.pixelSel c r).toNat = 0 ∧ 16 ≤ (s.img.read 10002).toNat := by
  rw [pixelIdx_eq_resolve, resolve_eq_none_iff_le, ← BitVec.toNat_inj, BitVec.toNat_zero]

/-- A pixel's index is the number of the source its selector chooses. -/
theorem pixelIdx_eq_some {i : BitVec 4} (h : s.pixelIdx c r = some i) :
    ((s.pixelSel c r).toNat = 0 → i.toNat = (s.img.read 10002).toNat % 16) ∧
      ((s.pixelSel c r).toNat = 1 → i.toNat = (s.img.read (8002 + (c.val / 4 + r.val / 8 * 40))).toNat / 16) ∧
      ((s.pixelSel c r).toNat = 2 → i.toNat = (s.img.read (8002 + (c.val / 4 + r.val / 8 * 40))).toNat % 16) ∧
      ((s.pixelSel c r).toNat = 3 → i.toNat = (s.img.read (9002 + (c.val / 4 + r.val / 8 * 40))).toNat % 16) := by
  obtain ⟨hzero, hone, htwo, hthree⟩ := resolve_eq_some (pixelIdx_eq_resolve s c r ▸ h)
  exact ⟨fun hs => hzero (BitVec.eq_of_toNat_eq hs), fun hs => hone (BitVec.eq_of_toNat_eq hs),
    fun hs => htwo (BitVec.eq_of_toNat_eq hs), fun hs => hthree (BitVec.eq_of_toNat_eq hs)⟩

end

/-- The triple is the palette entry of the index, where there is one. -/
theorem pixelRgb_eq_map (s : State) (c : Col) (r : Row) : s.pixelRgb c r = (s.pixelIdx c r).map s.romRead := by
  cases hi : s.pixelIdx c r with
  | none => simp [State.pixelRgb, State.pixel, hi]
  | some i => exact pixelRgb_eq_some.mpr ⟨i, hi, rfl⟩

/-- The MASK policy never faults (R124, R175). -/
theorem exists_pixelIdx_of_mask {s : State} (hp : s.bgPolicy = .mask) (c : Col) (r : Row) :
    ∃ i, s.pixelIdx c r = some i := by
  refine Option.ne_none_iff_exists'.mp fun hnone => ?_
  obtain ⟨hfault, -⟩ := pixelIdx_eq_none.mp hnone
  simp [hp] at hfault

/-- The pixel function reads IMG, the ROM and the parameter, and nothing else of the state. -/
theorem pixel_congr {s t : State} (hi : t.img = s.img) (hr : t.rom = s.rom) (hp : t.bgPolicy = s.bgPolicy)
    (c : Col) (r : Row) : t.pixel c r = s.pixel c r := by
  simp only [State.pixel, State.pixelIdx, State.pixelSel, State.romRead, hi, hr, hp]

/-- Of IMG it reads the four bytes of the pixel alone. -/
theorem pixel_congr_of_reads {s t : State} {c : Col} {r : Row}
    (h : ∀ a ∈ pixelAddrs c r, s.img.read a = t.img.read a) (hr : s.rom = t.rom) (hp : s.bgPolicy = t.bgPolicy) :
    s.pixel c r = t.pixel c r :=
  calc s.pixel c r = (t.withImg s.img).pixel c r := pixel_congr (s := t.withImg s.img) (t := s) rfl hr hp c r
    _ = t.pixel c r := pixel_withImg_of_reads h

/-! ## The response words (R82) as numbers -/

theorem selWord_toNat (sel : BitVec 2) : (selWord sel).toNat = sel.toNat := by
  rw [selWord, toNat_append_eq, BitVec.toNat_zero, Nat.zero_mul, Nat.zero_add]

theorem selWord_eq_ofNat (sel : BitVec 2) : selWord sel = BitVec.ofNat 32 sel.toNat := by
  rw [← selWord_toNat, BitVec.ofNat_toNat, BitVec.setWidth_eq]

theorem selWord_sel (sel : BitVec 2) : (selWord sel).extractLsb' 0 2 = sel := BitVec.extractLsb'_append_eq_right

theorem resolveWord_toNat (idx : BitVec 4) : (resolveWord idx).toNat = idx.toNat := by
  rw [resolveWord, toNat_append_eq, BitVec.toNat_zero, Nat.zero_mul, Nat.zero_add]

theorem resolveWord_eq_ofNat (idx : BitVec 4) : resolveWord idx = BitVec.ofNat 32 idx.toNat := by
  rw [← resolveWord_toNat, BitVec.ofNat_toNat, BitVec.setWidth_eq]

theorem resolveWord_idx (idx : BitVec 4) : (resolveWord idx).extractLsb' 0 4 = idx := BitVec.extractLsb'_append_eq_right

/-- PIXEL's word is the words of SEL, RESOLVE and LOOKUP side by side. -/
theorem pixelWord_toNat (sel : BitVec 2) (idx : BitVec 4) (t : Rgb) : (pixelWord sel idx t).toNat =
    (selWord sel).toNat * 2 ^ 28 + (resolveWord idx).toNat * 2 ^ 24 + (lookupWord t).toNat := by
  simp only [pixelWord, lookupWord, selWord_toNat, resolveWord_toNat, toNat_append_eq, BitVec.toNat_ofNat]
  omega

/-! ## SEL (R122) -/

theorem exec_sel (byte : Byte) (pair : BitVec 2) (s : State) :
    exec (.sel byte pair) s = .next (s.respond (selWord (selector byte pair))) := rfl

theorem decode_of_sel_row {w : Word} (h : w &&& 0xFFFFFC00 = 0x30000000) :
    decode w = .ok (.sel (w.extractLsb' 0 8) (w.extractLsb' 8 2)) := by
  obtain ⟨hop, hres⟩ := (and_mask_eq_iff w 3 (n := 10) (by decide)).mp h
  rw [decode_of_op_sel hop, if_pos hres]

theorem decode_of_sel_reservedBit {w : Word} (hop : w.extractLsb' 28 4 = 3) (hres : w.extractLsb' 10 18 ≠ 0) :
    decode w = .error .reservedBit := by
  rw [decode_of_op_sel hop, if_neg hres]

/-! ## RESOLVE (R125) -/

section
variable {sel : BitVec 2} {a b g : Byte} {s : State}

theorem exec_resolve_of_some {i : BitVec 4} (h : resolve s.bgPolicy sel a b g = some i) :
    exec (.resolve sel a b g) s = .next (s.respond (resolveWord i)) := by
  simp only [exec, execResolve, h]

theorem exec_resolve_of_none (h : resolve s.bgPolicy sel a b g = none) :
    exec (.resolve sel a b g) s = .fault .bgHighNibble := by
  simp only [exec, execResolve, h]

end

theorem decode_of_resolve_row {w : Word} (h : w &&& 0xFC000000 = 0x40000000) : decode w =
    .ok (.resolve (w.extractLsb' 24 2) (w.extractLsb' 8 8) (w.extractLsb' 16 8) (w.extractLsb' 0 8)) := by
  obtain ⟨hop, hres⟩ := (and_mask_eq_iff w 4 (n := 26) (by decide)).mp h
  rw [decode_of_op_resolve hop, if_pos hres]

theorem decode_of_resolve_reservedBit {w : Word} (hop : w.extractLsb' 28 4 = 4) (hres : w.extractLsb' 26 2 ≠ 0) :
    decode w = .error .reservedBit := by
  rw [decode_of_op_resolve hop, if_neg hres]

/-! ## PIXEL (R129) -/

section
variable {col row : Byte} {c : Col} {r : Row} {s : State}

theorem exec_pixel_of_some (hg : gridPos col row = some (c, r)) {i : BitVec 4} (hi : s.pixelIdx c r = some i) :
    exec (.pixel col row) s = .next (s.respond (pixelWord (s.pixelSel c r) i (s.romRead i))) := by
  simp only [exec, execPixel, hg, State.pixel, hi]

theorem exec_pixel_of_none (hg : gridPos col row = some (c, r)) (hi : s.pixelIdx c r = none) :
    exec (.pixel col row) s = .fault .bgHighNibble := by
  simp only [exec, execPixel, hg, State.pixel, hi]

theorem exec_pixel_of_outOfRange (hg : gridPos col row = none) :
    exec (.pixel col row) s = .next (s.raiseErr .range) := by
  simp only [exec, execPixel, hg]

/-- Inside the grid a PIXEL goes on exactly where there is an index. -/
theorem exec_pixel_eq_next (hg : gridPos col row = some (c, r)) {t : State} :
    exec (.pixel col row) s = .next t ↔
      ∃ i, s.pixelIdx c r = some i ∧ t = s.respond (pixelWord (s.pixelSel c r) i (s.romRead i)) := by
  cases hi : s.pixelIdx c r with
  | none => simp [exec_pixel_of_none hg hi]
  | some i => simp [exec_pixel_of_some hg hi, eq_comm]

end

theorem decode_of_pixel_row {w : Word} (h : w &&& 0xFFFF0000 = 0x50000000) :
    decode w = .ok (.pixel (w.extractLsb' 0 8) (w.extractLsb' 8 8)) := by
  obtain ⟨hop, hres⟩ := (and_mask_eq_iff w 5 (n := 16) (by decide)).mp h
  rw [decode_of_op_pixel hop, if_pos hres]

theorem decode_of_pixel_reservedBit {w : Word} (hop : w.extractLsb' 28 4 = 5) (hres : w.extractLsb' 16 12 ≠ 0) :
    decode w = .error .reservedBit := by
  rw [decode_of_op_pixel hop, if_neg hres]

/-! ## The statements -/

/-- Settles O9: a mask has ones in its pair's two bits alone, so masking and shifting reads that pair. -/
theorem selectorIsItsBitPair : Obligations.SelectorIsItsBitPair :=
  ⟨by decide, by decide, fun b p => ⟨selector_toNat_eq_mask b p, selector_toNat b p⟩⟩

/-- Settles O10: each source is a nibble as a number, and the policies part at the background byte 16. -/
theorem colourSourcesHold : Obligations.ColourSourcesHold := by
  refine ⟨fun p a b g => ⟨resolve_zero p a b g, ?_, ?_, ?_⟩, fun g => ?_, fun g => ?_,
    fun p g hg => bgIndex_of_lt hg p, rfl⟩
  · rw [← highNibble_eq_ofNat]
    exact resolve_one p a b g
  · rw [← lowNibble_eq_ofNat]
    exact resolve_two p a b g
  · rw [← lowNibble_eq_ofNat]
    exact resolve_three p a b g
  · rw [← lowNibble_eq_ofNat]
    rfl
  · split_ifs with hg
    · exact bgIndex_of_lt hg .fault
    · exact bgIndex_fault_of_le (Nat.not_lt.mp hg)

/-- Settles O11: the four addresses are R128's, and another image that agrees there gives the same pixel. -/
theorem pixelDependsOnFourBytes : Obligations.PixelDependsOnFourBytes := by
  intro s t c r hbm ha hb hbg hrom hpolicy
  refine pixel_congr_of_reads ?_ hrom hpolicy
  simp only [pixelAddrs_eq, bmOff_toNat, attrOff_toNat, List.forall_mem_cons]
  exact ⟨hbm, ha, hb, hbg, by simp⟩

/-- Settles O12: the index of selector 0 is the background index, and the triple is its palette entry. -/
theorem selectorZeroIgnoresAttributes : Obligations.SelectorZeroIgnoresAttributes := by
  intro s c r hsel
  rw [pixelRgb_eq_map, pixelIdx_eq_resolve, hsel]
  exact congrArg (Option.map s.romRead) (resolve_zero _ _ _ _)

/-- Settles O54: a triple at every position, since the index never fails under MASK. -/
theorem maskDecodesEveryImage : Obligations.MaskDecodesEveryImage := by
  intro s hp
  have hrgb (c : Col) (r : Row) : ∃ t, s.pixelRgb c r = some t := by
    obtain ⟨i, hi⟩ := exists_pixelIdx_of_mask hp c r
    exact ⟨_, pixelRgb_eq_some.mpr ⟨i, hi, rfl⟩⟩
  choose px hpx using hrgb
  exact ⟨px, hpx⟩

/-- Settles O15: the row fixes op code and reserved field, and the one effect of SEL is the response of the bit pair. -/
theorem selResult : Obligations.SelResult := by
  refine ⟨fun _ => decode_of_sel_row, fun _ hop hres => raisesErrOp_of_illegal (decode_of_sel_reservedBit hop hres),
    fun byte pair s => ?_⟩
  rw [exec_sel, selWord_eq_ofNat, selector_toNat]
  rfl

/-- Settles O16: RESOLVE responds with the index where the resolution answers one, and it answers none exactly in the
fault case. -/
theorem resolveResult : Obligations.ResolveResult := by
  refine ⟨fun _ => decode_of_resolve_row,
    fun _ hop hres => raisesErrOp_of_illegal (decode_of_resolve_reservedBit hop hres), fun sel a b g s hnf => ?_,
    fun sel a b g s hp hsel hg => exec_resolve_of_none (resolve_eq_none_iff_le.mpr ⟨hp, hsel, hg⟩)⟩
  obtain ⟨i, hi⟩ := Option.ne_none_iff_exists'.mp (mt resolve_eq_none_iff_le.mp hnf)
  obtain ⟨hzero, hone, htwo, hthree⟩ := resolve_eq_some hi
  refine ⟨i.toNat, hzero, hone, htwo, hthree, ?_⟩
  rw [exec_resolve_of_some hi, resolveWord_eq_ofNat]
  rfl

/-- Settles O17: the selector and the index are R130's on the four bytes of IMG, the range check decides about
ERR_RANGE, and the resolution's one fault is PIXEL's. -/
theorem pixelResult : Obligations.PixelResult := by
  refine ⟨fun _ => decode_of_pixel_row,
    fun _ hop hres => raisesErrOp_of_illegal (decode_of_pixel_reservedBit hop hres), ?_,
    fun col row s h => exec_pixel_of_outOfRange (gridPos_eq_none.mpr h)⟩
  intro col row s bm a b g sel hc hr
  obtain ⟨c, r, hg⟩ : ∃ c r, gridPos col row = some (c, r) := ⟨_, _, gridPos_of_inRange hc hr⟩
  obtain ⟨hcol, hrow⟩ := gridPos_eq_some.mp hg
  rw [hcol, hrow]
  rintro rfl rfl rfl rfl hsel
  obtain rfl := hsel.trans (pixelSel_toNat s c r).symm
  refine ⟨fun hnf => ?_, fun hp hs hhigh => exec_pixel_of_none hg (pixelIdx_eq_none.mpr ⟨hp, hs, hhigh⟩)⟩
  obtain ⟨i, hi⟩ := Option.ne_none_iff_exists'.mp (mt pixelIdx_eq_none.mp hnf)
  obtain ⟨hzero, hone, htwo, hthree⟩ := pixelIdx_eq_some hi
  refine ⟨i, hzero, hone, htwo, hthree, ?_⟩
  rw [exec_pixel_of_some hg hi, BitVec.ofNat_toNat, BitVec.setWidth_eq]
  rfl

/-- Settles O21: PIXEL's word is made of the same selector, index and triple that the three operations answer. -/
theorem unitOperationsComposeToPixel : Obligations.UnitOperationsComposeToPixel := by
  intro s col row c r hg tp h
  obtain ⟨i, hi, rfl⟩ := (exec_pixel_eq_next hg).mp h
  refine ⟨_, s.respond (resolveWord i), _, exec_sel _ _ s, exec_resolve_of_some ?_, exec_lookup _ s, ?_⟩
  · rw [respond_rspWord, selWord_sel]
    exact hi
  · simp only [respond_rspWord, resolveWord_idx]
    exact pixelWord_toNat _ _ _

end Sys2Proof.Machine
end

section
/-! PROOFS. The family of 43_raster_emitter.md: RUN, the stream's bytes by their numbers, the emitter's step, and what a
host receives over a run of steps. -/

namespace Sys2Proof.Machine

/-! ## RUN (R79, R141) -/

theorem exec_run (e : Bool) (s : State) : exec (.run e) s = .next (s.startRun e) := rfl

/-- A RUN always goes on, and only to the start of a stream. -/
theorem exec_run_eq_next {e : Bool} {s t : State} : exec (.run e) s = .next t ↔ t = s.startRun e := by
  rw [exec_run, Host.Outcome.next.injEq, eq_comm]

theorem decode_of_run_row {w : Word} (h : w &&& 0xFFFFFFFE = 0x60000000) : decode w = .ok (.run (w.getLsbD 0)) := by
  obtain ⟨hop, hres⟩ := (and_mask_eq_iff w 6 (n := 1) (by decide)).mp h
  rw [decode_of_op_run hop, if_pos hres]

theorem decode_of_run_reservedBit {w : Word} (hop : w.extractLsb' 28 4 = 6) (hres : w.extractLsb' 1 27 ≠ 0) :
    decode w = .error .reservedBit := by
  rw [decode_of_op_run hop, if_neg hres]

/-- Settles O18: the row fixes op code and reserved field, and RUN goes on to the start of a stream, where BUSY is 1. -/
theorem runResult : Obligations.RunResult := by
  refine ⟨fun _ => decode_of_run_row, fun _ hop hres => raisesErrOp_of_illegal (decode_of_run_reservedBit hop hres),
    fun e s => exec_run e s, fun e s t h => ?_⟩
  have hbusy : t.busy = true := by rw [exec_run_eq_next.mp h]; rfl
  exact ⟨hbusy, by simpa using hbusy⟩

/-- Settles O20: the start of a stream writes the position, EXP, DONE and the response strobe alone. -/
theorem runFrame : Obligations.RunFrame := by
  intro e s t h
  obtain rfl := exec_run_eq_next.mp h
  exact ⟨rfl, rfl, rfl, rfl, rfl, rfl, rfl, fun _ => rfl, rfl, rfl, rfl, rfl, rfl, rfl⟩

/-! ## The stream's bytes and lengths (R146, R148, R149, R155) -/

/-- Settles O46: the flags' headers differ in two of their 38 bytes, and past them neither has a byte. -/
theorem headerBytesHold : Obligations.HeaderBytesHold := by
  refine ⟨rfl, header_length _, header_length _, rfl, rfl, fun i h26 h27 => ?_⟩
  by_cases hi : i < 38
  · have hsame : ∀ j < 38, j ≠ 26 → j ≠ 27 → (header true)[j]? = (header false)[j]? := by decide
    exact hsame i hi h26 h27
  · rw [List.getElem?_eq_none (by rw [header_length]; omega), List.getElem?_eq_none (by rw [header_length]; omega)]

theorem body_length (px : Grid) (e : Bool) : (body px e).length = outW e * 200 * 3 := by
  simp only [body, List.length_flatMap, rowBytes_length, List.map_const', List.sum_replicate_nat,
    List.length_finRange]
  ring

theorem stream_length (px : Grid) (e : Bool) : (stream px e).length = streamLength e := by
  rw [stream, List.length_append, header_length, body_length, streamLength]

/-- Settles O47: rows times columns times copies times three channels, and the header before them. -/
theorem streamLengthsHold : Obligations.StreamLengthsHold := fun px =>
  ⟨body_length px false, body_length px true, stream_length px false, stream_length px true⟩

/-- Settles O48: without expansion there is one copy, with it `dup` chooses one of two. -/
theorem bytePositionsHold : Obligations.BytePositionsHold := fun px c r ch =>
  ⟨getElem?_stream_byteNumber (e := false) (dup := false) (fun _ => rfl) px r c ch,
    fun dup => getElem?_stream_byteNumber (e := true) (dup := dup) (by simp) px r c ch⟩

theorem exists_chanIndex {k : Nat} (hk : k < 3) : ∃ ch, chanIndex ch = k := by
  interval_cases k
  · exact ⟨.r, rfl⟩
  · exact ⟨.g, rfl⟩
  · exact ⟨.b, rfl⟩

/-- Settles O49: all three bytes are the same channel of the same pixel. -/
theorem expansionDuplicatesPixels : Obligations.ExpansionDuplicatesPixels := by
  intro px c r k hk
  obtain ⟨ch, rfl⟩ := exists_chanIndex hk
  obtain ⟨hplain, hexpanded⟩ := bytePositionsHold px c r ch
  have hfirst := hexpanded false
  have hsecond := hexpanded true
  rw [Bool.toNat_false, Nat.add_zero] at hfirst
  rw [Bool.toNat_true] at hsecond
  rw [hplain, hfirst, hsecond]
  exact ⟨rfl, rfl, by simp⟩

/-! ## The emitter's handshake (R150, R152, R153) -/

/-- While `out_ready` is 0 the emitter holds its byte and its position (R150). -/
theorem step_of_stalled {s m : State} (hm : hostMove s = .next m) (hp : m.phase ≠ .idle) (hr : m.rst = false)
    (ho : m.outReady = false) : step s = .next m.noResponse := by
  rw [step_of_hostMove hm]
  cases hph : m.phase with
  | idle => exact absurd hph hp
  | hdr => simp [blockStep, hr, hph, ho]
  | pix => simp [blockStep, hr, hph, ho]

theorem outValid_iff {s : State} (hr : s.rst = false) : s.outValid = true ↔ s.phase ≠ .idle := by
  simp [State.outValid, State.busy, hr]

/-- In a step that transfers, the port shows the emitter's byte. -/
theorem State.Transfers.outData_eq {s : State} (h : s.Transfers) : s.outData = s.streamByte := by
  rw [State.outData, if_pos ((outValid_iff h.rst_off).2 h.1)]

/-- A step that goes on with a transfer is the emitter's. -/
theorem transfers_next {s m t : State} (hm : hostMove s = .next m) (ht : m.Transfers) (h : step s = .next t) :
    ∃ b, m.streamByte = some b ∧ t = (m.noResponse.transfer b m.outLast).advance.loadLatch := by
  rw [step_of_transfers hm ht] at h
  exact emitStep_next h

/-- Only a transfer puts a byte on the log. -/
theorem byte_mem_log_of_not_transfers {m t : State} (h : BlockEffect m t) (hnt : ¬m.Transfers) {b : Byte} {l : Bool}
    (hb : .byte b l ∈ t.log) : .byte b l ∈ m.log := by
  cases h with
  | reset => exact hb
  | hold => exact hb
  | run => exact hb
  | respond => simpa using hb
  | error => simpa using hb
  | byte ht => exact absurd ht hnt

/-- Settles O31: the emitter is held without `out_ready`, and with it transfers the byte on the port. -/
theorem emitterHoldsUntilReady : Obligations.EmitterHoldsUntilReady := by
  refine ⟨fun s => outValid_iff, fun s m => step_of_stalled, fun s m t hm ht h => ?_,
    fun s m t hm hnt h b l => byte_mem_log_of_not_transfers (blockEffect_of_step hm h) hnt⟩
  obtain ⟨b, hb, rfl⟩ := transfers_next hm ht h
  exact ⟨b, ht.outData_eq.trans hb, by simp⟩

/-- Where the emitter has a position, `out_last` is 1 exactly at the stream's last one (R152). -/
theorem outLast_iff_position {s : State} (h : s.PositionInv) :
    s.outLast = true ↔ s.position = some (streamLength s.expand - 1) := by
  cases hk : s.position with
  | none =>
    have hidle : s.phase = .idle := by cases hp : s.phase <;> simp [State.position, hp] at hk ⊢
    simp [outLast_eq_false, hidle]
  | some k =>
    have hlt := position_lt h hk
    obtain ⟨hlast, -⟩ := advance_from_position h hk
    rw [hlast, beq_iff_eq, Option.some.injEq]
    omega

/-- Settles O33: the condition is the definition's, and the number of the last byte is one less than the length. -/
theorem outLastMarksTheLastByte : Obligations.OutLastMarksTheLastByte := by
  refine ⟨fun s => by simp [State.outLast, and_assoc], fun s hs => ?_⟩
  rw [outLast_iff_position hs.positionInv]
  cases s.expand <;> rfl

/-- Settles O34: the transfer at the last position ends the run, and DONE rises in no other step (R30). -/
theorem runEndsWithLastByte : Obligations.RunEndsWithLastByte := by
  refine ⟨fun s m t hm hi ht hlast h => ?_, fun s m t hm h hs hdone => ?_⟩
  · obtain ⟨b, -, rfl⟩ := transfers_next hm ht h
    rw [hlast]
    have hpos : (m.noResponse.transfer b true).PositionInv := { hi.positionInv with }
    have hk : m.position = some (streamLength m.expand - 1) := (outLast_iff_position hi.positionInv).1 hlast
    obtain ⟨-, ⟨hlt, -⟩ | ⟨-, hidle, -, hcounters⟩⟩ := advance_from_position hpos hk
    · simp only [transfer_expand, noResponse_expand] at hlt
      omega
    · simp [State.busy, State.cmdReady, hlast, hidle, hcounters, ht.rst_off]
  · obtain ⟨hreset, hrun, -, hkeep, -⟩ := doneChangesOnlyByRunAndReset s m t hm h
    by_contra hno
    have hr : m.rst = false := by simpa [hdone] using hreset
    have hnrun : ¬(m.Accepts ∧ ∃ e, decode m.cmdWord = .ok (.run e)) := fun ⟨ha, he⟩ => by
      simpa [hdone] using hrun ha he
    simpa [hdone, hs] using hkeep hr hnrun hno

/-! ## A stream in progress

Where BG_HIGH_NIBBLE is taken a pixel has no triple, and the emitter stops before it. So a stream in progress is compared
with the stream of a grid that need only agree with the pixels that have one. -/

/-- The grid holds the triple of every pixel that has one. -/
def State.Shows (s : State) (px : Grid) : Prop := ∀ col row p, s.pixelRgb col row = some p → px col row = p

theorem State.Decodes.shows {s : State} {px : Grid} (h : s.Decodes px) : s.Shows px := fun col row p hp => by
  simpa [h col row] using hp

/-- The pixel function reads the same in both states (R131). -/
def SamePixels (s t : State) : Prop := ∀ col row, t.pixelRgb col row = s.pixelRgb col row

theorem State.Shows.congr {s t : State} {px : Grid} (h : s.Shows px) (hst : SamePixels s t) : t.Shows px :=
  fun col row p hp => h col row p ((hst col row).symm.trans hp)

/-- Images that read alike, with the same ROM and policy, have the same pixels. -/
theorem samePixels_of_reads {s t : State} (hi : ∀ a, s.img.read a = t.img.read a) (hr : s.rom = t.rom)
    (hp : s.bgPolicy = t.bgPolicy) : SamePixels s t := fun col row => by
  simp only [State.pixelRgb, pixel_congr_of_reads (fun a _ => hi a) hr hp]

/-- The stream of the grid is in progress with the flag, and byte `k` is presented. -/
structure State.Presents (s : State) (px : Grid) (e : Bool) (k : Nat) : Prop extends s.PositionInv where
  shows : s.Shows px
  flag : s.expand = e
  number : s.position = some k

/-- The stream with the flag has ended, and no byte is left from number `k` on. -/
structure State.Ended (s : State) (e : Bool) (k : Nat) : Prop where
  idle : s.phase = .idle
  done : s.done = true
  flag : s.expand = e
  past : streamLength e ≤ k

theorem streamEvents_length (px : Grid) (e : Bool) : (streamEvents px e).length = streamLength e := by
  rw [streamEvents, List.length_mapIdx, stream_length]

section
variable {s m t : State} {px : Grid} {e : Bool} {k : Nat}

theorem State.Presents.busy (h : s.Presents px e k) : s.phase ≠ .idle := phase_ne_idle_of_position h.number

theorem State.Presents.lt (h : s.Presents px e k) : k < streamLength e :=
  h.flag ▸ position_lt h.toPositionInv h.number

/-- The byte presented, where there is one, is the stream's (R24, R151). -/
theorem State.Presents.getElem?_stream (h : s.Presents px e k) {b : Byte} (hb : s.streamByte = some b) :
    (stream px e)[k]? = some b := by
  obtain rfl := h.flag
  rcases position_eq_some.1 h.number with ⟨hp, rfl⟩ | ⟨hp, rfl⟩
  · rw [getElem?_stream_header, ← hb, State.streamByte, hp]
  · rw [getElem?_stream_byteNumber h.dupNeedsExpand, ← hb, State.streamByte, hp]
    cases hpix : s.pixelRgb s.col s.row with
    | none => simp [State.streamByte, hp, hpix] at hb
    | some p => simp [h.shows _ _ _ hpix]

/-- Where the image decodes, the emitter presents a byte (R175). -/
theorem exists_streamByte (hd : s.Decodes px) (hp : s.phase ≠ .idle) : ∃ b, s.streamByte = some b := by
  cases hph : s.phase with
  | idle => exact absurd hph hp
  | hdr => simp [State.streamByte, hph]
  | pix => simp [State.streamByte, hph, hd s.col s.row]

theorem loadLatch_positionInv (h : s.PositionInv) : s.loadLatch.PositionInv where
  dupNeedsExpand := by simpa using h.dupNeedsExpand
  idleAtZero := by simpa using h.idleAtZero
  hdrAtZero := by simpa using h.hdrAtZero
  pixAtZero := by simpa using h.pixAtZero
  busyNotDone := by simpa using h.busyNotDone

/-- A transfer delivers the stream's event at the number presented, and the next number is presented or the stream has
ended. -/
theorem State.Presents.transfer (h : s.Presents px e k) {b : Byte} (hb : s.streamByte = some b)
    (ht : t = (s.noResponse.transfer b s.outLast).advance.loadLatch) :
    (streamEvents px e)[k]? = some (.byte b s.outLast) ∧ (t.Presents px e (k + 1) ∨ t.Ended e (k + 1)) := by
  have hpos : (s.noResponse.transfer b s.outLast).PositionInv := { h.toPositionInv with }
  obtain ⟨hlast, hnext⟩ := advance_from_position hpos (k := k) h.number
  have hflag : t.expand = e := by simp [ht, h.flag]
  refine ⟨?_, hnext.imp (fun ⟨_, hk, _⟩ => ?_) fun ⟨hk, hidle, hd, _⟩ => ?_⟩
  · have hl : s.outLast = (k + 1 == streamLength e) := h.flag ▸ hlast
    rw [hl, streamEvents, List.getElem?_mapIdx, h.getElem?_stream hb, Option.map_some]
  · have hsame : SamePixels s t := pixelRgb_congr (by simp [ht]) (by simp [ht]) (by simp [ht])
    exact
      { toPositionInv := ht ▸ loadLatch_positionInv (advance_positionInv hpos h.busy)
        shows := h.shows.congr hsame
        flag := hflag
        number := by simpa [ht] using hk }
  · exact ⟨by simpa [ht] using hidle, by simpa [ht] using hd, hflag, by simpa [h.flag] using hk.ge⟩

/-- What the block makes of a stream in progress, unless it is reset: it holds, or delivers the event presented. -/
theorem blockEffect_presents (h : m.Presents px e k) (hr : m.rst = false) (hb : BlockEffect m t) :
    (t.Presents px e k ∧ t.log = m.log) ∨
    ∃ ev, (streamEvents px e)[k]? = some ev ∧ t.log = ev :: m.log ∧ (t.Presents px e (k + 1) ∨ t.Ended e (k + 1)) := by
  cases hb with
  | reset hr' => simp [hr] at hr'
  | hold => exact .inl ⟨{ h with }, rfl⟩
  | run ha => exact absurd ha.1 h.busy
  | respond ha => exact absurd ha.1 h.busy
  | error ha => exact absurd ha.1 h.busy
  | byte ht b hb =>
    obtain ⟨hev, hnext⟩ := h.transfer hb rfl
    exact .inr ⟨_, hev, by simp, hnext⟩

/-- No host move touches a stream in progress: a write to IMG would be refused (R57). -/
theorem hostMove_presents (h : s.Presents px e k) (hm : hostMove s = .next m) : m.Presents px e k := by
  rcases hostMove_next hm with ⟨-, rfl⟩ | ⟨_, -, rfl⟩ | ⟨_, _, -, -, rfl⟩ | ⟨_, _, -, -, rfl⟩ | ⟨_, _, -, rfl⟩ |
    ⟨_, _, -, rfl⟩ | ⟨_, _, _, -, hf, -⟩
  · exact h
  · exact { h with }
  · exact h
  · exact { h with }
  · exact { h with }
  · exact { h with }
  · have hbusy : s.inFlight = true := inFlight_iff.2 (.inl h.busy)
    simp [hf] at hbusy

/-- A host without a reset in its list leaves reset off. -/
theorem hostMove_noReset (hr : s.rst = false) (hn : noReset s.script) (hm : hostMove s = .next m) :
    m.rst = false ∧ noReset m.script := by
  have hrest {x rest} (hs : s.script = x :: rest) : noReset rest := fun y hy =>
    hn y (hs ▸ List.mem_cons_of_mem _ hy)
  rcases hostMove_next hm with ⟨-, rfl⟩ | ⟨_, hs, rfl⟩ | ⟨_, _, -, -, rfl⟩ | ⟨_, _, hs, -, rfl⟩ | ⟨_, _, hs, rfl⟩ |
    ⟨v, _, hs, rfl⟩ | ⟨_, _, _, hs, -, rfl⟩
  · exact ⟨hr, hn⟩
  · exact ⟨hr, hrest hs⟩
  · exact ⟨hr, hn⟩
  · exact ⟨hr, hrest hs⟩
  · exact ⟨hr, hrest hs⟩
  · have hv : HostMove.reset v ≠ .reset true := hn _ (by simp [hs])
    exact ⟨by simpa using hv, hrest hs⟩
  · exact ⟨hr, hrest hs⟩

/-- The block drives no input port but takes a command off its own. -/
theorem blockEffect_inputs (h : BlockEffect m t) : t.rst = m.rst ∧ t.script = m.script := by
  cases h with
  | reset => exact ⟨rfl, rfl⟩
  | hold => exact ⟨rfl, rfl⟩
  | run => exact ⟨rfl, rfl⟩
  | respond => exact ⟨rfl, rfl⟩
  | error => simp
  | byte => simp

end

/-! ## Runs under any host (R150, R154, R156) -/

theorem runs_zero {s t : State} : Runs 0 s t ↔ t = s :=
  ⟨fun h => (Host.Outcome.next.inj h).symm, fun h => congrArg Host.Outcome.next h.symm⟩

/-- A run's first step, and the run from there on. -/
theorem runs_succ {n : Nat} {s t : State} : Runs (n + 1) s t ↔ ∃ u, step s = .next u ∧ Runs n u t := by
  have hcore : Sys2Proof.core.step s = step s := rfl
  simp only [Runs, Host.Core.run, hcore]
  cases step s <;> simp

/-- An event and those delivered after it are those from the event's number on. -/
theorem drop_succ_append {α : Type} {l : List α} {k : Nat} {x : α} (h : l[k]? = some x) (log : List α) :
    (l.drop (k + 1)).reverse ++ x :: log = (l.drop k).reverse ++ log := by
  obtain ⟨hk, rfl⟩ := List.getElem?_eq_some_iff.1 h
  rw [List.drop_eq_getElem_cons hk, List.reverse_cons, List.append_assoc, List.singleton_append]

/-- Induction on the steps: each one holds the stream or delivers its next event, until it has ended. -/
theorem runs_presents {n : Nat} {s t : State} {px : Grid} {e : Bool} {k : Nat} (h : s.Presents px e k)
    (hr : s.rst = false) (hn : noReset s.script) (hrun : Runs n s t) :
    (∃ k', k ≤ k' ∧ t.Presents px e k' ∧ t.log = (((streamEvents px e).take k').drop k).reverse ++ s.log) ∨
    (∃ j u, j ≤ n ∧ Runs j s u ∧ u.phase = .idle ∧ u.done = true ∧
      u.log = ((streamEvents px e).drop k).reverse ++ s.log) := by
  induction n generalizing s k with
  | zero =>
    obtain rfl := runs_zero.1 hrun
    exact .inl ⟨k, le_rfl, h, by simp⟩
  | succ n ih =>
    obtain ⟨u, hstep, hrest⟩ := runs_succ.1 hrun
    obtain ⟨m, hm, -⟩ := step_next hstep
    have hb := blockEffect_of_step hm hstep
    obtain ⟨hmr, hmn⟩ := hostMove_noReset hr hn hm
    obtain ⟨hur, hus⟩ := blockEffect_inputs hb
    obtain ⟨-, -, -, -, -, -, -, -, -, -, -, -, -, -, -, -, hmlog⟩ := hostMove_frame hm
    replace ih {k} (hu : u.Presents px e k) := ih hu (hur.trans hmr) (hus ▸ hmn) hrest
    rcases blockEffect_presents (hostMove_presents h hm) hmr hb with ⟨hu, hlog⟩ | ⟨ev, hev, hlog, hu | hu⟩
    · rw [← hmlog, ← hlog]
      exact (ih hu).imp_right fun ⟨j, v, hj, hv, hend⟩ => ⟨j + 1, v, by omega, runs_succ.2 ⟨u, hstep, hv⟩, hend⟩
    · rw [hmlog] at hlog
      rcases ih hu with ⟨k', hk', ht, htlog⟩ | ⟨j, v, hj, hv, hidle, hdone, hvlog⟩
      · have hev' : ((streamEvents px e).take k')[k]? = some ev := by rw [List.getElem?_take_of_lt hk', hev]
        exact .inl ⟨k', by omega, ht, by rw [htlog, hlog, drop_succ_append hev']⟩
      · exact .inr ⟨j + 1, v, by omega, runs_succ.2 ⟨u, hstep, hv⟩, hidle, hdone,
          by rw [hvlog, hlog, drop_succ_append hev]⟩
    · refine .inr ⟨1, u, by omega, runs_succ.2 ⟨u, hstep, runs_zero.2 rfl⟩, hu.idle, hu.done, ?_⟩
      rw [← drop_succ_append hev, List.drop_eq_nil_of_le (by rw [streamEvents_length]; exact hu.past), hlog, hmlog]
      rfl

/-- Settles O50: the stream in progress, at its own position. -/
theorem streamUnderAnyHost : Obligations.StreamUnderAnyHost := by
  intro n s t px k hs hd hk hr hn hrun
  have hstart : s.Presents px s.expand k :=
    { hs.positionInv with
      shows := hd.shows
      flag := rfl
      number := hk }
  exact (runs_presents hstart hr hn hrun).imp_left fun ⟨k', hk', ht, hlog⟩ => ⟨k', hk', ht.lt, ht.number, hlog⟩

/-! ## Runs under a ready host (R154, R158, R196) -/

/-- A host that offers RUN with the flag to an IDLE block, takes every byte, and has no move after that. -/
structure State.OffersRun (s : State) (e : Bool) : Prop where
  idle : s.phase = .idle
  rstOff : s.rst = false
  portFree : s.cmdValid = false
  ready : s.outReady = true
  offer : ∃ w, s.script = [.offer w] ∧ decode w = .ok (.run e)

/-- `t` is `k` steps after the step from `s` in which the RUN was accepted. -/
structure ReadyRun (px : Grid) (e : Bool) (s : State) (k : Nat) (t : State) : Prop where
  script : t.script = []
  rstOff : t.rst = false
  portFree : t.cmdValid = false
  ready : t.outReady = true
  rspWord : t.rspWord = s.rspWord
  rspErr : t.rspErr = s.rspErr
  img : t.img = s.img
  pixels : SamePixels s t
  log : t.log = ((streamEvents px e).take k).reverse ++ s.log
  progress : t.Presents px e k ∨ t.Ended e k

section
variable {s t u : State} {px : Grid} {e : Bool} {k n : Nat}

/-- The accepting step starts the stream. -/
theorem State.OffersRun.exists_readyRun (h : s.OffersRun e) (hpx : s.Shows px) :
    ∃ t, step s = .next t ∧ ReadyRun px e s 0 t := by
  obtain ⟨w, hscript, hdec⟩ := h.offer
  refine ⟨_, step_of_legal (hostMove_of_offer hscript h.portFree) ⟨h.idle, h.rstOff, rfl⟩ hdec, ?_⟩
  exact
    { script := rfl
      rstOff := h.rstOff
      portFree := rfl
      ready := h.ready
      rspWord := rfl
      rspErr := rfl
      img := rfl
      pixels := fun _ _ => rfl
      log := rfl
      progress := .inl
        { dupNeedsExpand := fun _ => rfl
          idleAtZero := by simp
          hdrAtZero := fun _ => ⟨rfl, rfl, rfl, rfl⟩
          pixAtZero := by simp
          busyNotDone := fun _ => rfl
          shows := hpx
          flag := rfl
          number := rfl } }

theorem ReadyRun.hostMove_eq (h : ReadyRun px e s k t) : hostMove t = .next t := by
  simp [hostMove, h.script]

theorem ReadyRun.transfers (h : ReadyRun px e s k t) (hp : t.Presents px e k) : t.Transfers :=
  ⟨hp.busy, h.rstOff, h.ready⟩

/-- After the end of the stream nothing is left to do. -/
theorem ReadyRun.step_of_ended (h : ReadyRun px e s k t) (he : t.Ended e k) : step t = .next t.noResponse :=
  step_of_idle h.hostMove_eq (by simp [State.Accepts, h.portFree]) h.rstOff he.idle

/-- Each further step takes one byte, as long as there is one. -/
theorem ReadyRun.step (h : ReadyRun px e s k t) (hstep : Machine.step t = .next u) : ReadyRun px e s (k + 1) u := by
  rcases h.progress with hp | he
  · obtain ⟨b, hb, hu⟩ := transfers_next h.hostMove_eq (h.transfers hp) hstep
    obtain ⟨hev, hnext⟩ := hp.transfer hb hu
    subst hu
    exact
      { script := by simpa using h.script
        rstOff := by simpa using h.rstOff
        portFree := by simpa using h.portFree
        ready := by simpa using h.ready
        rspWord := by simpa using h.rspWord
        rspErr := by simpa using h.rspErr
        img := by simpa using h.img
        pixels := fun c r => (pixelRgb_congr (by simp) (by simp) (by simp) c r).trans (h.pixels c r)
        log := by simp [List.take_add_one, hev, h.log]
        progress := hnext }
  · rw [h.step_of_ended he, Host.Outcome.next.injEq] at hstep
    subst hstep
    have hlen : (streamEvents px e).length ≤ k := (streamEvents_length px e).trans_le he.past
    have hlog := h.log
    rw [List.take_of_length_le hlen] at hlog
    exact { h with
      log := by rwa [List.take_of_length_le (hlen.trans k.le_succ)]
      progress := .inr ⟨he.idle, he.done, he.flag, he.past.trans k.le_succ⟩ }

theorem ReadyRun.runs (h : ReadyRun px e s k t) (hrun : Runs n t u) : ReadyRun px e s (k + n) u := by
  induction n generalizing t k with
  | zero => exact runs_zero.1 hrun ▸ h
  | succ n ih =>
    obtain ⟨v, hstep, hrest⟩ := runs_succ.1 hrun
    rw [← Nat.succ_add_eq_add_succ]
    exact ih (h.step hstep) hrest

/-- Where the image decodes no step stops. -/
theorem ReadyRun.exists_step (h : ReadyRun px e s k t) (hd : s.Decodes px) : ∃ u, Machine.step t = .next u := by
  rcases h.progress with hp | he
  · have hdt : t.Decodes px := fun c r => (h.pixels c r).trans (hd c r)
    obtain ⟨b, hb⟩ := exists_streamByte hdt hp.busy
    exact ⟨_, (step_of_transfers h.hostMove_eq (h.transfers hp)).trans (emitStep_of_byte hb)⟩
  · exact ⟨_, h.step_of_ended he⟩

theorem ReadyRun.exists_runs (h : ReadyRun px e s k t) (hd : s.Decodes px) (n : Nat) : ∃ u, Runs n t u := by
  induction n generalizing t k with
  | zero => exact ⟨t, runs_zero.2 rfl⟩
  | succ n ih =>
    obtain ⟨v, hstep⟩ := h.exists_step hd
    obtain ⟨u, hrest⟩ := ih (h.step hstep)
    exact ⟨u, runs_succ.2 ⟨v, hstep, hrest⟩⟩

/-- A ready host receives one event of the stream a step, from the step after the accepting one on. -/
theorem State.OffersRun.log_eq (h : s.OffersRun e) (hpx : s.Shows px) (hrun : Runs n s t) :
    t.log = ((streamEvents px e).take (n - 1)).reverse ++ s.log := by
  cases n with
  | zero => simp [runs_zero.1 hrun]
  | succ n =>
    obtain ⟨u, hstep, hu⟩ := h.exists_readyRun hpx
    obtain ⟨v, hv, hrest⟩ := runs_succ.1 hrun
    obtain rfl : u = v := by simpa [hstep] using hv
    simpa using (hu.runs hrest).log

end

/-- Settles O51: the accepting step starts the stream, every step after it takes one byte, and after the last one the
run has ended. -/
theorem readyHostGetsTheWholeStream : Obligations.ReadyHostGetsTheWholeStream := by
  intro s w e px k hp hr hv ho hs hdec hd hk
  have hoffer : s.OffersRun e := ⟨hp, hr, hv, ho, w, hs, hdec⟩
  obtain ⟨u, hstep, hu⟩ := hoffer.exists_readyRun hd.shows
  obtain ⟨t, hrest⟩ := hu.exists_runs hd k
  have ht : ReadyRun px e s k t := Nat.zero_add k ▸ hu.runs hrest
  have hrun : Runs (1 + k) s t := Nat.add_comm k 1 ▸ runs_succ.2 ⟨u, hstep, hrest⟩
  refine ⟨t, hrun, ht.log, ?_, ht.rspWord, ht.rspErr, ht.img, ?_⟩
  · exact ht.progress.elim (·.flag) (·.flag)
  · rcases ht.progress with hpres | hend
    · have hlt := hpres.lt
      have hdone := hpres.busyNotDone hpres.busy
      simp [State.busy, hpres.busy, hdone, hlt, hlt.ne]
    · obtain rfl : k = streamLength e := hk.antisymm hend.past
      simp [State.busy, hend.idle, hend.done]

/-- Settles O53: both runs deliver the stream of one grid, since their images have the same pixels; where a pixel has no
triple the grid's value does not matter. -/
theorem sameImageSameStream : Obligations.SameImageSameStream := by
  intro n s s' t t' w e hp hr hv ho hs hlog hp' hr' hv' ho' hs' hlog' hdec himg hrom hpol hrun hrun'
  obtain ⟨px, hpx⟩ : ∃ px, s.Shows px :=
    ⟨fun c r => (s.pixelRgb c r).getD Rgb.black, fun c r p hc => by simp [hc]⟩
  have hpx' : s'.Shows px := hpx.congr (samePixels_of_reads himg hrom hpol)
  have hoffer : s.OffersRun e := ⟨hp, hr, hv, ho, w, hs, hdec⟩
  have hoffer' : s'.OffersRun e := ⟨hp', hr', hv', ho', w, hs', hdec⟩
  rw [hoffer.log_eq hpx hrun, hoffer'.log_eq hpx' hrun', hlog, hlog']

end Sys2Proof.Machine
end

section
/-! PROOFS. The family of 60_exceptions.md: which operations raise ERR_RANGE and what the responding ones leave
unchanged, the one error of a command, and where a step faults. -/

namespace Sys2Proof

/-- The operation takes a coordinate, and the range check answers no position for it (R101, R173). -/
def Instr.outsideGrid : Instr → Bool
  | .addr col row | .pixel col row => (Machine.gridPos col row).isNone
  | .lookup _ | .sel _ _ | .resolve _ _ _ _ | .run _ => false

end Sys2Proof

namespace Sys2Proof.Machine

/-! ## ERR_RANGE and ERR_OP under an operation (R171, R173) -/

theorem gridPos_isNone (col row : Byte) :
    (gridPos col row).isNone = (decide (160 ≤ col.toNat) || decide (200 ≤ row.toNat)) := by
  rw [Bool.eq_iff_iff]
  simp [gridPos_eq_none]

/-- Outside the grid ADDR and PIXEL raise ERR_RANGE, whatever the state. -/
theorem exec_of_outsideGrid {i : Instr} (h : i.outsideGrid = true) (s : State) :
    exec i s = .next (s.raiseErr .range) := by
  cases i with
  | addr col row => exact exec_addr_of_outOfRange (Option.isNone_iff_eq_none.mp h) s
  | pixel col row => exact exec_pixel_of_outOfRange (Option.isNone_iff_eq_none.mp h)
  | _ => simp [Instr.outsideGrid] at h

/-- Inside the grid, and with no coordinate, no operation raises ERR_RANGE. -/
theorem exec_errRange_of_insideGrid {i : Instr} {s t : State} (hg : i.outsideGrid = false) (h : exec i s = .next t) :
    t.errRange = s.errRange := by
  cases i with
  | lookup idx => rw [exec_lookup_eq_next.mp h, respond_errRange]
  | addr col row =>
    obtain ⟨⟨c, r⟩, hpos⟩ := Option.isSome_iff_exists.mp (Option.isNone_eq_false_iff.mp hg)
    rw [exec_addr_of_inRange hpos] at h
    rw [← Host.Outcome.next.inj h, respond_errRange]
  | sel byte pair => rw [← Host.Outcome.next.inj ((exec_sel byte pair s).symm.trans h), respond_errRange]
  | resolve sel a b g =>
    cases hi : resolve s.bgPolicy sel a b g with
    | none => simp [exec_resolve_of_none hi] at h
    | some idx => rw [← Host.Outcome.next.inj ((exec_resolve_of_some hi).symm.trans h), respond_errRange]
  | pixel col row =>
    obtain ⟨⟨c, r⟩, hpos⟩ := Option.isSome_iff_exists.mp (Option.isNone_eq_false_iff.mp hg)
    obtain ⟨idx, -, rfl⟩ := (exec_pixel_eq_next hpos).mp h
    exact respond_errRange _ _
  | run e => rw [exec_run_eq_next.mp h]; rfl

/-- ERR_RANGE is set exactly outside the grid. -/
theorem exec_errRange {i : Instr} {s t : State} (h : exec i s = .next t) :
    t.errRange = (s.errRange || i.outsideGrid) := by
  cases hg : i.outsideGrid with
  | false => rw [exec_errRange_of_insideGrid hg h, Bool.or_false]
  | true =>
    rw [← Host.Outcome.next.inj ((exec_of_outsideGrid hg s).symm.trans h), Bool.or_true]
    rfl

/-- No operation touches ERR_OP. -/
theorem exec_errOp {i : Instr} {s t : State} (h : exec i s = .next t) : t.errOp = s.errOp := by
  rcases exec_next h with ⟨e, -, rfl⟩ | ⟨w, rfl⟩ | rfl
  · rfl
  · rfl
  · rfl

/-- An operation other than RUN writes the response, its registers and the log, and beside them at most ERR_RANGE. -/
theorem exec_next_of_ne_run {i : Instr} {s t : State} (hi : ∀ e, i ≠ .run e) (h : exec i s = .next t) :
    ∃ err w range, t = { s with
      rspValid := true, rspErr := err, rspWord := w, errRange := range, log := .response err w :: s.log } := by
  rcases exec_next h with ⟨e, rfl, -⟩ | ⟨w, rfl⟩ | rfl
  · exact absurd rfl (hi e)
  · exact ⟨false, w, s.errRange, rfl⟩
  · exact ⟨true, 0, true, rfl⟩

/-- Settles O19: the fields a responding operation writes are named once, and the range bit among them is set exactly
outside the grid. -/
theorem respondingFrame : Obligations.RespondingFrame := by
  intro i s t hi h
  have hrange := exec_errRange h
  obtain ⟨err, w, range, rfl⟩ := exec_next_of_ne_run hi h
  refine ⟨rfl, rfl, rfl, rfl, rfl, rfl, rfl, rfl, rfl, hrange.trans ?_, rfl, rfl, rfl, fun _ => rfl, rfl, rfl, rfl,
    rfl, rfl, rfl, rfl⟩
  cases i with
  | addr c r => rw [Instr.outsideGrid, gridPos_isNone]
  | pixel c r => rw [Instr.outsideGrid, gridPos_isNone]
  | _ => rfl

/-! ## One error per command (R172 to R174) -/

/-- A word is illegal exactly when no row selects it (R80). -/
theorem decode_eq_error_iff {w : Word} :
    (∃ e, decode w = .error e) ↔ ∀ r ∈ opTable, w &&& r.mask ≠ r.matchBits := by
  obtain ⟨hlegal, -⟩ := legalIffOneRowSelects
  have hno : (∃ e, decode w = .error e) ↔ ¬∃ i, decode w = .ok i := by cases decode w <;> simp
  rw [hno, hlegal w]
  simp

/-- Settles O22: a word without a row is illegal, so acceptance answers by ERR_OP; and the examples, being illegal, have
no row. -/
theorem illegalWordRaisesErrOp : Obligations.IllegalWordRaisesErrOp := by
  refine ⟨fun s m hm ha hrow => ?_, ?_⟩
  · obtain ⟨e, hd⟩ := decode_eq_error_iff.mpr hrow
    exact ⟨_, step_of_illegal hm ha hd, rfl, rfl, rfl, rfl⟩
  · simp only [List.forall_mem_cons, ← decode_eq_error_iff]
    exact ⟨⟨_, rfl⟩, ⟨_, rfl⟩, ⟨_, rfl⟩, ⟨_, rfl⟩, by simp⟩

/-- Settles O23: the decoder alone decides between ERR_OP and the operation, whose one error is ERR_RANGE. -/
theorem oneErrorPerCommand : Obligations.OneErrorPerCommand := by
  intro s m t hm ha h
  refine ⟨fun e hd => ?_, fun i hd => ?_, fun c r hd hout => ?_⟩
  · obtain rfl := Host.Outcome.next.inj ((step_of_illegal hm ha hd).symm.trans h)
    exact ⟨rfl, rfl⟩
  · exact exec_errOp (s := m.accepted) ((step_of_legal hm ha hd).symm.trans h)
  · have hnone := gridPos_eq_none.mpr hout
    obtain ⟨i, hdi, hi⟩ : ∃ i, decode m.cmdWord = .ok i ∧ i.outsideGrid = true := by
      rcases hd with hd | hd
      · exact ⟨_, hd, Option.isNone_iff_eq_none.mpr hnone⟩
      · exact ⟨_, hd, Option.isNone_iff_eq_none.mpr hnone⟩
    rw [step_of_legal hm ha hdi, exec_of_outsideGrid hi] at h
    exact (Host.Outcome.next.inj h).symm

/-! ## BG_HIGH_NIBBLE (R124, R170, R175) -/

theorem step_of_reset {s m : State} (hm : hostMove s = .next m) (hr : m.rst = true) : step s = .next m.resetBlock := by
  simp [step_of_hostMove hm, blockStep, hr]

/-- The host's move goes on or is refused. -/
theorem hostMove_ne_fault (s : State) (f : Fault) : hostMove s ≠ .fault f := by
  unfold hostMove
  split
  case h_3 => split_ifs <;> simp
  case h_6 => split_ifs <;> simp
  all_goals simp

/-- The operations that fault are RESOLVE and PIXEL, where the resolution answers no index. -/
theorem bgPolicy_of_exec_fault {i : Instr} {s : State} {f : Fault} (h : exec i s = .fault f) : s.bgPolicy = .fault := by
  cases i with
  | lookup idx => simp [exec_lookup] at h
  | addr col row =>
    cases hg : gridPos col row with
    | none => simp [exec_addr_of_outOfRange hg] at h
    | some pos => simp [exec_addr_of_inRange hg] at h
  | sel byte pair => simp [exec_sel] at h
  | resolve sel a b g =>
    cases hi : resolve s.bgPolicy sel a b g with
    | none => exact (resolve_eq_none_iff_le.mp hi).1
    | some idx => simp [exec_resolve_of_some hi] at h
  | pixel col row =>
    cases hg : gridPos col row with
    | none => simp [exec_pixel_of_outOfRange hg] at h
    | some pos =>
      cases hi : s.pixelIdx pos.1 pos.2 with
      | none => exact (pixelIdx_eq_none.mp hi).1
      | some idx => simp [exec_pixel_of_some hg hi] at h
  | run e => simp [exec_run] at h

/-- While BUSY the emitter lacks a byte only under FAULT: under MASK every pixel decodes. -/
theorem bgPolicy_of_no_streamByte {s : State} (hp : s.phase ≠ .idle) (h : s.streamByte = none) :
    s.bgPolicy = .fault := by
  cases hpol : s.bgPolicy with
  | fault => rfl
  | mask =>
    obtain ⟨px, hpx⟩ := maskDecodesEveryImage s hpol
    obtain ⟨b, hb⟩ := exists_streamByte hpx hp
    simp [hb] at h

theorem streamByte_of_emitStep_fault {s : State} {f : Fault} (h : emitStep s = .fault f) : s.streamByte = none := by
  cases hb : s.streamByte with
  | none => rfl
  | some b => simp [emitStep_of_byte hb] at h

/-- A step that faults is an accepted operation or a transfer that does. -/
theorem step_fault_cases {s m : State} {f : Fault} (hm : hostMove s = .next m) (h : step s = .fault f) :
    (m.Accepts ∧ ∃ i, decode m.cmdWord = .ok i ∧ exec i m.accepted = .fault f) ∨
    (m.Transfers ∧ emitStep m.noResponse = .fault f) := by
  cases hr : m.rst with
  | true => simp [step_of_reset hm hr] at h
  | false =>
    by_cases hp : m.phase = .idle
    · by_cases ha : m.Accepts
      · cases hd : decode m.cmdWord with
        | error e => simp [step_of_illegal hm ha hd] at h
        | ok i => exact .inl ⟨ha, i, rfl, (step_of_legal hm ha hd).symm.trans h⟩
      · simp [step_of_idle hm ha hr hp] at h
    · cases ho : m.outReady with
      | false => simp [step_of_stalled hm hp hr ho] at h
      | true =>
        have ht : m.Transfers := ⟨hp, hr, ho⟩
        exact .inr ⟨ht, (step_of_transfers hm ht).symm.trans h⟩

theorem bgPolicy_of_step_fault {s : State} {f : Fault} (h : step s = .fault f) : s.bgPolicy = .fault := by
  cases hm : hostMove s with
  | fault f' => exact absurd hm (hostMove_ne_fault s f')
  | refused r => simp [step_refused.mpr hm] at h
  | next m =>
    obtain ⟨-, -, -, -, -, -, -, -, -, -, -, -, -, -, hpol, -⟩ := hostMove_frame hm
    rw [← hpol]
    rcases step_fault_cases hm h with ⟨-, i, -, hi⟩ | ⟨ht, he⟩
    · exact bgPolicy_of_exec_fault (s := m.accepted) hi
    · exact bgPolicy_of_no_streamByte (s := m.noResponse) ht.1 (streamByte_of_emitStep_fault he)

/-- The parameter is a constant of the block (R8). -/
theorem blockEffect_bgPolicy {m t : State} (h : BlockEffect m t) : t.bgPolicy = m.bgPolicy := by
  cases h with
  | reset => rfl
  | hold => rfl
  | run => rfl
  | respond => rfl
  | error => simp
  | byte => simp

theorem step_bgPolicy {s t : State} (h : step s = .next t) : t.bgPolicy = s.bgPolicy := by
  obtain ⟨m, hm, -⟩ := step_next h
  obtain ⟨-, -, -, -, -, -, -, -, -, -, -, -, -, -, hpol, -⟩ := hostMove_frame hm
  exact (blockEffect_bgPolicy (blockEffect_of_step hm h)).trans hpol

/-- Settles O25: the resolution has no index only under FAULT, and neither host nor block writes the parameter. -/
theorem onlyBgHighNibbleFaults : Obligations.OnlyBgHighNibbleFaults :=
  ⟨fun _ .bgHighNibble h => ⟨rfl, bgPolicy_of_step_fault h⟩, fun _ _ => step_bgPolicy⟩

end Sys2Proof.Machine
end

section
/-! PROOFS. The family of 70_reset_and_hazards.md: what reset leaves of the block, a stream cut by it, and what the host
cannot change while a stream is in progress. -/

namespace Sys2Proof.Machine

/-! ## The reset input (R190, R192, R193) -/

@[simp] theorem resetBlock_status (s : State) : s.resetBlock.status = 0b00000 := by
  simp [State.status, State.busy]

/-- Settles O41: the step is the reset whatever the block was doing, and its ports follow from BUSY and `rst`. -/
theorem resetInputResetsTheBlock : Obligations.ResetInputResetsTheBlock := by
  intro s m hm hr
  exact ⟨_, step_of_reset hm hr, by simp [State.cmdReady, State.outValid, State.busy, hr]⟩

/-- A reset move ends whatever is in progress, and delivers nothing more. -/
theorem step_of_resetMove {s : State} {rest : List HostMove} (hs : s.script = .reset true :: rest) :
    step s = .next { s with script := rest, rst := true }.resetBlock :=
  step_of_reset (by simp [hostMove, hs]) rfl

/-- Settles O52: a ready host has received the first `k` events in order, and reset leaves what was delivered. -/
theorem cutStreamIsAPrefix : Obligations.CutStreamIsAPrefix := by
  intro s t u w e px k hp hr hv ho hs hlog hdec hd hk hrun hcut
  have hoffer : s.OffersRun e := ⟨hp, hr, hv, ho, w, hs, hdec⟩
  have htlog : t.log = ((streamEvents px e).take k).reverse := by
    simpa [hlog] using hoffer.log_eq hd.shows hrun
  rw [step_of_resetMove rfl, Host.Outcome.next.injEq] at hcut
  subst hcut
  refine ⟨rfl, rfl, ?_, ?_⟩
  · simpa [htlog] using List.take_prefix k (streamEvents px e)
  · simpa [htlog, streamEvents_length] using hk

/-! ## While a stream is in progress (R70, R199, R202) -/

/-- Settles O29: a BUSY block holds or transfers a byte, and neither touches the command port or the response
registers. -/
theorem commandIsHeldWhileBusy : Obligations.CommandIsHeldWhileBusy := by
  refine ⟨fun s m t hm hp hr h => ?_, fun s m w rest hv hs hm => ?_⟩
  · have hready : m.cmdReady = false := by simp [State.cmdReady, State.busy, hp]
    cases blockEffect_of_step hm h with
    | reset hr' => simp [hr] at hr'
    | hold => simp [hready]
    | run ha => exact absurd ha.1 hp
    | respond ha => exact absurd ha.1 hp
    | error ha => exact absurd ha.1 hp
    | byte => simp [hready]
  · have hwait : hostMove s = .next s := by simp [hostMove, hs, hv]
    exact Host.Outcome.next.inj (hm.symm.trans hwait)

@[simp] theorem startRun_expand (s : State) (e : Bool) : (s.startRun e).expand = e := rfl

/-- Settles O36: EXP in each of the ways a step can go on. -/
theorem expandSampledOnlyAtRun : Obligations.ExpandSampledOnlyAtRun := by
  intro s m t hm h
  obtain ⟨-, -, -, -, -, -, hexp, -⟩ := hostMove_frame hm
  rw [← hexp]
  cases blockEffect_of_step hm h with
  | reset hr => simp [State.Accepts, hr]
  | hold hr ha ht => simp [hr, ha]
  | run ha e hd => simp [ha, ha.rst_off, hd]
  | respond ha hd w => simp [ha, ha.rst_off, hd]
  | error ha hd k => simp [ha, ha.rst_off, hd]
  | byte ht b hb => simp [ht.rst_off, ht.not_accepts]

end Sys2Proof.Machine
end
